-- ==== Sys2Proof/Word.lean ====
section
/-! DEFINITION. Word types of the PV4810 (R4: registers are 32 bits; R139, R180: bytes, 64-bit table entries). -/

namespace Sys2Proof

/-- A byte on a bus, in a packet or in memory. -/
abbrev Byte := BitVec 8
/-- A 16-bit field. -/
abbrev Half := BitVec 16
/-- A register word (R4). -/
abbrev Word := BitVec 32
/-- A booth-table entry or a nonvolatile word (R66, R180). -/
abbrev DWord := BitVec 64
/-- A byte string in transfer order. -/
abbrev Bytes := List Byte
/-- A booth number, 0 to 7 (Table 1-1). -/
abbrev Booth := Fin 8

end Sys2Proof
end

