-- ==== Sys2Proof/Syntax.lean ====
section
/-! DEFINITION. The commands of the block: one constructor of `Instr` per row of spec/opcode_table.json, with the row's
operands. A packet row carries the sender, the tag and the payload bytes (R139); a row for something that happens to the
block carries what the block observes of it (a level, a reading, received bytes). -/

namespace Sys2Proof

/-- How a sender reaches the block: the host bus, or the debug port, which acts as booth 0 (R104, R155). -/
inductive Path where
  | host
  | debug
deriving DecidableEq, Repr

/-- The sender of a bus transaction: the booth its address (or booth byte) selects, and the path. -/
structure Src where
  booth : Booth
  path : Path
deriving DecidableEq, Repr

/-- A command packet whose framing and CRC were good (R139): sender, tag, payload. The opcode is the row's own. -/
structure Packet where
  src : Src
  tag : Byte
  payload : Bytes
deriving DecidableEq, Repr

/-- The opcode byte of row NOP: 0x00, or a value that Table 7-2 does not list (R144). -/
inductive NopOp where
  | nop
  | unlisted (op : Byte)
deriving DecidableEq, Repr

/-- The cases of R141, in their order. -/
inductive Malformed where
  | length (len : Half)
  | crc
  | early
  | tagReuse (tag : Byte)
deriving DecidableEq, Repr

/-- The Keep's two shared engines (R193). -/
inductive EngineId where
  | aes
  | hash
deriving DecidableEq, Repr

/-- Address spaces of memory errors (R383): physical addresses of Table 9-2, the routine bank, the sample windows, the
demodulators' memory and the program memory. -/
inductive EccSpace where
  | phys
  | routine
  | window
  | demod
  | program
deriving DecidableEq, Repr

/-- A SECDED error that a read meets: the 64-bit word's address, and whether it is uncorrectable (R383). -/
structure EccHit where
  space : EccSpace
  addr : Nat
  hard : Bool
deriving DecidableEq, Repr

/-- What a PBUS bus clear finds (R132). -/
inductive ClearResult where
  | freed
  | stuck
deriving DecidableEq, Repr

/-- What a PBUS transfer meets on the bus (R129 to R131). -/
inductive PbusOutcome where
  | done (read : Bytes)
  | addrNack
  | dataNack (acked : Byte)
  | arbLost
  | stretching
deriving DecidableEq, Repr

/-- One attempt of a PBUS transfer: the bus clear that a low PSDA asked for first, then the attempt (R129, R131). -/
structure PbusRun where
  clearFirst : Option ClearResult
  out : PbusOutcome
deriving DecidableEq, Repr

/-- What a retune meets: whether the stored words of the channel's entry and of the divider's band-level entry check
(R240, R383), whether a stored retune sets LOCK within its bound (R248), and what a full calibration finds: the codes of an
entry, or no lock (R240, R243). -/
structure CalRun where
  temp : Int
  pvt : Nat
  acq : Nat
  gain : Nat
  locks : Bool
  stored : Bool := true
  entryOk : Bool := true
  bandOk : Bool := true
deriving DecidableEq, Repr

/-- The environment of a datacast window's opening: what the retune meets, what the return to a held station meets should
the window end at once, the level of COEX_GNT, and whether another window follows within 2 ms (R241, R243, R246, R257). -/
structure WindowEnv where
  cal : CalRun
  back : CalRun
  gnt : Bool
  another : Bool := false
deriving DecidableEq, Repr

/-- What FM_TUNE_DONE measured (R333). -/
structure FmMeasure where
  rssi : Int
  snr : Nat
  pilot : Bool
deriving DecidableEq, Repr

/-- A register-port transaction of one booth (R114, R115). `clear` is what the bus clear finds that a write reaching
`PB_CTRL` runs (R132). -/
inductive RegAccess where
  | read (addr : Half) (count : Nat)
  | write (addr : Half) (data : Bytes) (clear : ClearResult)
deriving DecidableEq, Repr

/-- A write transaction that carries no more than what selects a port (R109, R111, Table 6-3): a port byte, for the register
port at most the low address byte; another port byte; in single mode a booth byte of 0x08 or above. -/
inductive PortWrite where
  | command | reply | event
  | register (low : Option Byte)
  | other (port : Byte)
  | boothByte (b : Byte)
deriving DecidableEq, Repr

/-- Which part of a blink begins (R170). -/
inductive BlinkStep where
  | periodStart
  | sinkEnd
deriving DecidableEq, Repr

/-- How an in-band request ends on the bus (R122 to R124); `more` counts the bytes that a controller reads on which
acknowledges the last one. -/
inductive IbrEnd where
  | completed (more : Nat)
  | addressNacked
  | lost (addr : BitVec 7) (read : Bool)
deriving DecidableEq, Repr

/-- The environment of a verdict: memory errors its lookups meet; whether the Keep finishes the car it is verifying
inside the verdict (R203, R204); whether a second car finishes while the re-run holds its snapshot (R203); what the return
to a held station meets where the finished car ends its window (R330). -/
structure VerdictEnv where
  ecc : List EccHit
  mid : Bool
  second : Bool
  back : CalRun := { temp := 0, pvt := 0, acq := 0, gain := 0, locks := false }
deriving DecidableEq, Repr

/-- A rest-sensed pin (R47). -/
inductive RestPin where
  | latchA | latchB | drvEn | gp0 | gp1 | gp2 | gp3
deriving DecidableEq, Repr

/-- A reading of a rest-sensed pin against the Schmitt thresholds (R47). -/
inductive PinReading where
  | low
  | high
  | between
deriving DecidableEq, Repr

/-- The two readings of R47 for the seven rest-sensed pins, in the order LATCH_A, LATCH_B, DRV_EN, GP0 to GP3. -/
structure RestReadings where
  first : Vector PinReading 7
  second : Vector PinReading 7
deriving DecidableEq, Repr

/-- What the last step of powering down leaves of its log entry (R66, R68). -/
inductive LogTear where
  | written
  | missing
  | torn
deriving DecidableEq, Repr

/-- The supervisor that starts powering down (R65). -/
inductive DownCause where
  | brownout
  | vsys
deriving DecidableEq, Repr

/-- The undervoltage resets (R65). -/
inductive UvRail where
  | vcore
  | vnvm
deriving DecidableEq, Repr

/-- What happens at the end of the rail start (R406). -/
inductive RailResult where
  | good
  | tripped
deriving DecidableEq, Repr

/-- The environment of RESET_RELEASE: the ROM check and the spore cells (R85), the ADDR voltage in mV (R44), the rest
readings (R47), and the first samples of the entropy source (R209). -/
structure BootEnv where
  rng : List Bool
  romOk : Bool
  sporeOk : Bool
  addrMv : Nat
  readings : RestReadings
deriving DecidableEq, Repr

/-- The environment of RINGMASTER_RELEASE: the calibration header word (R87) and the first tracking pass (R30). -/
structure ReleaseEnv where
  calHeaderOk : Bool
  readings : List (Nat × Nat)
  temp : Int
deriving DecidableEq, Repr

/-- The environment of a tracking pass: canary readings (block code of Table 2-1, percent), die temperature, idle VIN. -/
structure TrackEnv where
  readings : List (Nat × Nat)
  temp : Int
  vinMv : Half
deriving DecidableEq, Repr

/-- The slot of a listening window: channel, mast, expected car types (R330, R331). -/
structure SlotPlan where
  chan : Half
  mast : Half
  types : Half
  another : Bool
deriving DecidableEq, Repr

/-- A blanking input (R258). -/
inductive BlankPin where
  | a
  | b
deriving DecidableEq, Repr

/-- How a frame is acquired (R300): the start of its short training field after the radio was ready in LISTEN, in
microseconds; the offset seen in the short training and what the long training adds to it, in hertz; the symbol timing. -/
structure Acquire where
  readyUs : Nat
  coarseHz : Int
  fineHz : Int
  timing : Int
deriving DecidableEq, Repr

/-- What the receiver measured of a frame and the decoded payload bits, still scrambled (R298, R305): `s` is S of R305,
minus the EVM over the header and the payload symbols that are no erasures, in thousandths of a dB; `rssi` the level in dBm;
`ecc` the errors of memory that the demodulation reads (R383); `back` what the return to a held station meets where the
window's end waited for the frame (R246). -/
structure FrameEnv where
  ecc : List EccHit
  bits : List Bool
  s : Int
  rssi : Int
  back : CalRun
deriving DecidableEq, Repr

/-- The environment of CAR_VERIFIED: memory errors met, and what the return to a held station meets where the car ends its
window (R330). -/
structure CarEnv where
  ecc : List EccHit
  back : CalRun
deriving DecidableEq, Repr

/-- Status of a received RDS block (R341). -/
inductive BlockStatus where
  | good
  | corrected
  | erased
deriving DecidableEq, Repr

/-- A decoded RDS block. `alt` marks offset word C' in the third position; `offE` marks a block with offset word E that
RBDS decoding discards. -/
structure RdsBlock where
  data : Half
  status : BlockStatus
  alt : Bool
  offE : Bool
deriving DecidableEq, Repr

/-- The 26 bits of the four blocks of an RDS group as received, the first received bit most significant, and the
device-time age of its block A in microseconds (R341, R349); `ecc` the errors of memory that the demodulation reads
(R383). -/
structure RawGroup where
  ecc : List EccHit
  a : BitVec 26
  b : BitVec 26
  c : BitVec 26
  d : BitVec 26
  ageUs : Nat
deriving DecidableEq, Repr

/-- A decoded RDS group: its four blocks and the device-time age of its block A in microseconds (R349). -/
structure RdsGroup where
  a : RdsBlock
  b : RdsBlock
  c : RdsBlock
  d : RdsBlock
  ageUs : Nat
deriving DecidableEq, Repr

/-- A routine register code (Table 13-3): r0 to r7, a0 to a3, v0 to v15. -/
inductive JReg where
  | r (i : Fin 8)
  | a (i : Fin 4)
  | v (i : Fin 16)
deriving DecidableEq, Repr

/-- Branch conditions (Table 13-4). -/
inductive JCond where
  | always | z | nz | n | nn | v | nv | s
deriving DecidableEq, Repr

/-- One command of the block: one constructor per row of the table of operations and events. -/
inductive Instr where
  -- command packets and their framing (chapters 7, 10, 11)
  | nop (op : NopOp) (p : Packet)
  | cmdMalformed (src : Src) (m : Malformed)
  | getInfo (p : Packet)
  | devReset (p : Packet)
  | devResetFire
  | keyInfo (p : Packet)
  | keyLoad (p : Packet)
  | keyErase (p : Packet)
  | aesCrypt (p : Packet)
  | cmacGen (p : Packet)
  | sha256 (p : Packet)
  | edVerify (p : Packet)
  | edSign (p : Packet)
  | snapshotTimeout (e : EngineId)
  | keyDerive (p : Packet)
  | random (p : Packet)
  | auditPub (p : Packet)
  | credSubmit (p : Packet)
  | doorStatus (p : Packet)
  | latchCmd (p : Packet)
  | gpAssign (p : Packet)
  | gpWrite (p : Packet)
  | gpRead (p : Packet) (ext : BitVec 4)
  | pbusXfer (p : Packet) (run : PbusRun)
  | pbusRetry (run : PbusRun)
  | pbusTimeout (clear : ClearResult)
  | fmTune (p : Packet) (cal : CalRun)
  | fmScan (p : Packet) (cal : CalRun)
  | fmScanDone (rssi : List Int) (snr : List Nat) (cals : List CalRun) (back : CalRun)
  | fmStop (p : Packet)
  | rdsSubscribe (p : Packet)
  | dcStatus (p : Packet)
  | dcSubscribe (p : Packet)
  | dcInject (p : Packet)
  | dcListen (p : Packet) (env : WindowEnv)
  | dcCounters (p : Packet)
  | dcStop (p : Packet) (back : CalRun)
  | dcStart (p : Packet)
  | timeGet (p : Packet)
  | logInfo (p : Packet)
  | logRead (p : Packet) (ecc : List EccHit)
  | logCheckpoint (p : Packet)
  | logRelease (p : Packet)
  | storeRead (p : Packet) (ecc : List EccHit)
  | storeWrite (p : Packet) (ecc : List EccHit) (cut : Option Nat)
  | tableSet (p : Packet)
  | boothStatus (p : Packet)
  | rtnLoad (p : Packet)
  | rtnStart (p : Packet)
  | rtnRunBegin
  | routineResume
  | runLimit
  | rtnRead (p : Packet)
  | rtnWrite (p : Packet)
  | sporeRead (p : Packet)
  | sporeWrite (p : Packet)
  | sporeStep (p : Packet)
  | imgWrite (p : Packet)
  | imgCheckDone
  | imgActivate (p : Packet)
  | imgConfirm (p : Packet)
  | imgStatus (p : Packet)
  | lcProvision (p : Packet)
  | lcField (p : Packet)
  | lcRetire (p : Packet)
  | boothEnable (p : Packet)
  | boothDisable (p : Packet)
  | boothDrainEnd (booth : Booth)
  | cancel (p : Packet) (back : CalRun)
  -- ports and registers (chapters 6, 8, 18)
  | replyRead (src : Src) (first : Option PortWrite) (count : Nat)
  | eventPortRead (src : Src) (withPort : Bool) (count : Nat)
  | eventPortWrite (src : Src) (data : Bytes)
  | boothPriv (src : Src) (acc : RegAccess)
  | regWrite (src : Src) (addr : Half) (value : Word) (clear : ClearResult)
  | pwrTrackCtrlWrite (src : Src) (value : Word)
  | pwrBattCfgWrite (src : Src) (value : Word)
  | pwrTcxoCfgWrite (src : Src) (value : Word)
  | gateRequest (src : Src) (value : Word)
  | gateWithdraw (src : Src) (value : Word)
  | hbAddrCfgWrite (src : Src) (value : Word)
  | hbAddrCfgApply
  | hbCfgWrite (src : Src) (value : Word)
  | pbCfgWrite (src : Src) (value : Word)
  | pbOwnWrite (src : Src) (n : Fin 8) (value : Word)
  | pbClear (src : Src) (value : Word) (clear : ClearResult)
  | bthSlotsWrite (src : Src) (booth : Booth) (hi : Bool) (value : Word)
  | evrRouteWrite (src : Src) (group : Fin 17) (value : Word)
  | evrSigWrite (src : Src) (value : Word)
  | evPendClear (src : Src) (group : Fin 17) (value : Word) (same : Word)
  | evMaskWrite (src : Src) (group : Fin 17) (value : Word)
  | synClk0CfgWrite (src : Src) (value : Word)
  | synClk1CfgWrite (src : Src) (value : Word)
  | frdDetCfgWrite (src : Src) (value : Word)
  | frdFmShiftWrite (src : Src) (value : Word)
  | frdRestart (src : Src) (value : Word)
  | jugRtnCfgWrite (src : Src) (value : Word)
  | doorOutCfgWrite (src : Src) (value : Word)
  | doorOutCfgLock (src : Src) (value : Word)
  | doorInCfgWrite (src : Src) (value : Word)
  | doorTimingWrite (src : Src) (value : Word)
  | doorMotorCfgWrite (src : Src) (value : Word)
  | doorLedCfgWrite (src : Src) (value : Word)
  | ledBlinkPeriod (at_ : BlinkStep)
  | errAck (src : Src) (value : Word)
  | holdExit (src : Src) (value : Word)
  | dbgNonceRead (count : Nat)
  | dbgChallenge (sig : Bytes)
  -- host-bus wake, in-band request, PBUS (chapter 6)
  | hbWake (booth : Booth)
  | ibrStart
  | ibrSend (e : IbrEnd)
  | ibrTimeout
  | credReport (data : Bytes)
  | pbusResultRead (count : Nat)
  | credWake (asserted : Bool)
  | pbusIdleGate
  -- verdicts and the door (chapter 11)
  | verdict (env : VerdictEnv)
  | heldSlotWrite (env : CarEnv)
  | windowClose
  | motorStall (vinMv : Half)
  | motorTimeout (vinMv : Half)
  | driveFault (pin : RestPin) (vinMv : Option Half)
  | closeRetry
  | dwellEnd
  | deadTimeEnd
  | letGoEnd (pin : RestPin)
  | doorSenseChange (asserted : Bool)
  | handleAssert
  | privacySet
  | tamper (asserted : Bool)
  -- supply, reset, boot (chapters 3, 4, 5)
  | railStart (r : RailResult)
  | poweringDown (cause : DownCause) (tear : LogTear) (tamper : Bool)
  | powerOnRestart
  | alwaysOnLoss
  | vddioUv
  | supplyUvReset (rail : UvRail) (torn : Bool)
  | nrstReset (widthNs : Nat)
  | resetRelease (env : BootEnv)
  | ringmasterRelease (env : ReleaseEnv)
  | keepCheck (ok : Bool)
  | trialWdtExpire
  | activationDue
  | updateReset
  -- tracking and gates (chapters 2, 4)
  | trackingPass (env : TrackEnv)
  | canaryTrip (block : Fin 11) (percent : Nat)
  | preRaiseDone
  | leaseStart (plan : SlotPlan)
  | leaseEnd
  | leaseExpire
  -- radio and coexistence (chapters 12, 15)
  | listenWindowOpen (plan : SlotPlan) (env : WindowEnv)
  | coexGrant (cal back : CalRun)
  | windowEnd (cal : CalRun)
  | calBackground (chan : Half) (cal : CalRun)
  | synUnlock (cal back : CalRun)
  | refLoss
  | refReturn (cal back : CalRun)
  | dllUnlock
  | blankAssert (pin : BlankPin)
  | dcHeaderDecode (bits : BitVec 24) (acq : Acquire)
  | dcFrameEnd (env : FrameEnv)
  -- cars (chapter 15)
  | carPartialTimeout (mast : Half) (tag : Half)
  | carVerified (env : CarEnv)
  | snapshotSweepDone
  -- FM and RDS (chapter 16)
  | rdsGroup (g : RawGroup)
  | afCheck (held : Int) (readings : List Int) (cals : List CalRun) (back : CalRun)
  | afVerify (back : CalRun)
  -- time and log (chapter 17), random numbers, crystal
  | leapSecond
  | checkpointTimer
  | checkpointSigned
  | rngFail (samples : List Bool)
  | rngRetest (samples : List Bool)
  | x32Loss
  | x32Return
  -- booth-routine instructions (Table 13-4)
  | jugNop
  | jugMovi (d : JReg) (imm : Half)
  | jugMov (d a : JReg)
  | jugAdd (d a b : JReg)
  | jugSub (d a b : JReg)
  | jugAddi (d a : JReg) (imm : Half)
  | jugAnd (d a b : JReg)
  | jugOr (d a b : JReg)
  | jugXor (d a b : JReg)
  | jugShr (d a : JReg) (sh : BitVec 5)
  | jugShl (d a : JReg) (sh : BitVec 5)
  | jugAbs (d a : JReg)
  | jugLd (d : JReg) (a : Fin 4) (imm : BitVec 11) (ecc : List EccHit)
  | jugSt (d : JReg) (a : Fin 4) (imm : BitVec 11)
  | jugLdi (d : JReg) (a : Fin 4) (step : BitVec 8)
  | jugSti (d : JReg) (a : Fin 4) (step : BitVec 8)
  | jugGath16 (a b : Fin 4) (start : BitVec 4)
  | jugGath16r (a b : Fin 4) (d : Fin 8)
  | jugClr (x : Bool)
  | jugMul (x : Bool) (a b : JReg)
  | jugMac (x : Bool) (a b : JReg)
  | jugMsu (x : Bool) (a b : JReg)
  | jugAsha (x : Bool) (ash : BitVec 6)
  | jugRnd (d : JReg) (x : Bool) (sh : BitVec 5)
  | jugExp (d : Fin 8) (x : Bool)
  | jugNorm (d : Fin 8) (x : Bool)
  | jugBr (cond : JCond) (tgt : BitVec 9)
  | jugDbnz (d : Fin 8) (tgt : BitVec 9)
  | jugSetfv (tgt : BitVec 9) (clr : Bool)
  | jugGetf (d : Fin 8) (f : BitVec 2)
  | jugResume
  | jugEnd (a : Fin 4) (cnt : BitVec 7)
  -- rows that stand last in the table
  | handleRelease
  | blankRelease (pin : BlankPin)
  | blankLong
  | rdsSyncLost
  | vddioReturn
  | demodLate (fm : Bool) (lost : Nat) (back : CalRun)
  | frondSaturation
  | vsysCurrentLimit (acting : Bool)
  | fmTuneDone (m : FmMeasure)
  | engineOperationEnd (e : EngineId)
deriving DecidableEq, Repr

end Sys2Proof
end

