-- ==== Sys2Proof/Config.lean ====
section
/-! DEFINITION. What the spec leaves open: per-device constants and free values. Each is an opaque constant: nothing in
Lean can evaluate it, and every statement about the model holds for every value of it. The assumption log names each. -/

namespace Sys2Proof.Config

/-- The device's 8-byte identifier (Table 8-2: per device). Byte 0 is bits [7:0]. Log 8. -/
opaque idUnique : BitVec 64
/-- The transport key of slot 0, unique to each device (Table 10-3, R404). Log 8. -/
opaque transportKey : BitVec 256
/-- The hash of the vendor public key, held in ROM (R89 item 5, R407). Log 8. -/
opaque vendorKeyHash : BitVec 256
/-- Byte `i` of draw `k` of the CTR_DRBG or the ring-oscillator source (R209, R210). Log 9. -/
opaque randomByte (k i : Nat) : BitVec 8
/-- Whether an NRST pulse between 200 ns and 2 µs resets the device (R83). Log 10. -/
opaque shortPulseResets (k : Nat) : Bool
/-- Whether the device goes to sleep at idle tick `k` when nothing holds it awake (R26, R117). Log 11. -/
opaque sleepsAt (k : Nat) : Bool
/-- Which way a quotient that is no integer is rounded to parts per billion (R355, R356). Log 12. -/
opaque roundsUp (num den : Int) : Bool
/-- The state byte of an image slot in `IMG_STATUS`: Table 7-2 gives the states no codes. Argument: 0 empty, 1 loading,
2 ready, 3 trial, 4 rejected, 5 active (the model's own numbering of the argument). Log 13. -/
opaque imgStateByte (state : Nat) : BitVec 8
/-- What `DOOR_STATUS` gives as the last verdict code before any verdict (Table 7-2). Log 14. -/
opaque noVerdictCode (k : Nat) : BitVec 8
/-- What `DOOR_STATUS` gives as the last verdict's log sequence before any verdict (Table 7-2). Log 14. -/
opaque noVerdictSeq (k : Nat) : BitVec 40
/-- RTC periods between the reference instant and the application of an injected TIME car (R318 names the instant by a
frame, which an injected car has not). Log 15. -/
opaque injectAge (k : Nat) : Nat
/-- The `MAST_ID` that the log entry of an injected car carries: no mast sent it, and Table 17-3 gives no value. Log 15. -/
opaque injectMast (k : Nat) : BitVec 16
/-- The two candidate buckets of an ID under the revocation hashing key (chapter 11: taken from an AES-128 encryption,
the extraction is not given). Log 16. -/
opaque revBucket (key : BitVec 128) (id : BitVec 48) (which : Bool) : BitVec 16
/-- The level read at a pin that nothing drives and that was sensed FLOAT, or not yet sensed. Log 17. -/
opaque floatLevel (k pin : Nat) : Bool
/-- The mean RSSI of an FM retune in RX_QUALITY, and further analogue results the spec gives no rule for. Log 18. -/
opaque analogByte (k : Nat) : BitVec 8

/-- Sample `k` of the main ADC: 12 bits of I and of Q (chapter 13). Log 43. -/
opaque adcSample (k : Nat) : BitVec 12 × BitVec 12
/-- Coefficient `i` of the first half of frond `k`'s response in a set, in units of 2^-`tapBits`: not published (chapter 13).
Sets: 0 D, 1 F, 2 S, 3 W. Log 43. -/
opaque tap (set k i : Nat) : Int
/-- Fraction bits of the coefficients (chapter 13). Log 43. -/
opaque tapBits : Nat
/-- A sample multiplied by e^(+j2π`phase`/512): R259 gives no rounding of the product. Log 43. -/
opaque mixed (phase : Nat) (i q : Int) : Int × Int
/-- The pair of audio samples that the FM firmware yields at ADC sample `k` (chapter 13, R334: described by behaviour).
Log 43. -/
opaque fmAudio (k : Nat) : BitVec 16 × BitVec 16
/-- The phase error |e| of the synthesiser in ps at RTC period `k` (R248, R255). Log 44. -/
opaque phaseError (k : Nat) : Nat

/-- The product of a Juggler multiplication with an a-register operand: R274 gives products of r and v operands only.
Log 24. -/
opaque jugProduct (a b : BitVec 16) : BitVec 32
/-- A difference in milliseconds that a signed 32-bit log field cannot hold (Table 17-3 states no value). Log 23. -/
opaque wideMs (d : Int) : BitVec 32

/-- Register address, in words, of a selection that names port 0x03 before any address has been sent (R111; log 49). -/
opaque openRegAddr : Nat → BitVec 10

end Sys2Proof.Config
end

