-- ==== Sys2Proof/Machine/State.lean ====
section
/-! DEFINITION. The state of the block, as plain data, and its value right after reset. Every group below holds the
registers, queues, buffers, counters, modes and pins of one part of the spec; `Nv` survives every reset and power loss,
`Ao` is the always-on domain, every other group returns to its reset value at a reset. -/

namespace Sys2Proof.Machine

/-- No rule of the spec leaves a command without an effect: no meaning raises a fault. The one constructor is kept for a
command the queue could not hold; nothing raises it (safe). -/
inductive Fault where
  | unreachable
deriving DecidableEq, Repr

/-- Raised only by an arm of `exec` that has no meaning yet; safe: the machine stops by name. -/
inductive Refusal where
  | notModelled (mnemonic : String)
deriving DecidableEq, Repr

/-- A sparse byte memory: addresses strictly rising, no entry equal to the byte an unlisted address reads as (log 3). -/
abbrev Memory := List Host.Cell

/-- The phases of Table 3-2 in which the device is fitted. Powering down lies within the row POWERING_DOWN. -/
inductive Phase where
  | unpowered | reset | booting | running | holdSafe
deriving DecidableEq, Repr

/-- Reset causes (Table 5-1), in code order 1 to 11. -/
inductive Cause where
  | powerOn | brownout | vddioUv | vnvmUv | vcoreUv | nrstPin | keepFault | trialWdt | update | lifecycle | devReset
deriving DecidableEq, Repr

/-- Image slots (chapter 5). -/
inductive Slot where
  | a | b
deriving DecidableEq, Repr

/-- State of an image slot in the boot record (chapter 5); `active` marks a loaded active slot. -/
inductive SlotState where
  | empty | loading | ready | trial | rejected | active
deriving DecidableEq, Repr

/-- The path that holds a slot in LOADING (R94). -/
inductive LoadPath where
  | host | cars
deriving DecidableEq, Repr

/-- Debug-port state (R104). -/
inductive DbgState where
  | open_ | challenge | unlocked | closed
deriving DecidableEq, Repr

/-- Life-cycle states (Table 5-3). -/
inductive LifeCycle where
  | blank | provisioned | field | retired
deriving DecidableEq, Repr

/-- Rest codes (R50). -/
inductive RestCode where
  | low | high | float | unsensed
deriving DecidableEq, Repr

/-- What the device does with a rest-sensed pin (R54 to R56): high-impedance, driven at rest, driven active, or in the
20 µs of a let-go at rest. -/
inductive PinDrive where
  | z | rest | active | letGo
deriving DecidableEq, Repr

/-- Booth states (Table 8-3). -/
inductive BoothMode where
  | disabled | enabled | draining
deriving DecidableEq, Repr

/-- Key types (Table 10-2). -/
inductive KeyType where
  | empty | aes128 | aes256 | wrap256 | epoch256 | sign25519 | audit25519
deriving DecidableEq, Repr

/-- Reply statuses (Table 7-3). -/
inductive Status where
  | ok | busy | cancelled | badOpcode | badLength | badParam | priv | notReady | gated | powerLow | holdSafe
  | lifecycle | noTag | inUse | notFound | keyStale | keyEmpty | keyType | authFail | sporeSpent | rngFail
  | walkRange | walkDevice | walkEcc | restFloat | slotBusy | carReject | routineTrap | pbusArb | pbusTimeout
  | pbusNack | pbusDown
deriving DecidableEq, Repr

/-- A reply waiting in a booth's queue (R139, R143). `refusal` marks the reply in the extra ST_BUSY slot (R36). -/
structure Reply where
  tag : Byte
  status : Status
  payload : Bytes
  refusal : Bool
deriving DecidableEq, Repr

/-- An accepted command whose reply is still to come (R34, Table 2-3). -/
structure Svc where
  booth : Booth
  tag : Byte
  opcode : Byte
deriving DecidableEq, Repr

/-- The port of a selection (Table 6-3). -/
inductive Port where
  | command | reply | register (addr : Nat) | event
deriving DecidableEq, Repr

/-- A routine of a booth (Table 8-3 `BTH_RTN`). -/
inductive RtnState where
  | none_ | loaded | running | trapped
deriving DecidableEq, Repr

/-- One booth: its control registers, queue, events, subscriptions and counters (Table 8-3, Table 9-1). -/
structure BoothSt where
  /-- `BTH_STATE` of the booth. -/
  mode : BoothMode
  /-- `BTH_DEPTH` of the booth, 0 while disabled. -/
  depth : Nat
  /-- Replies waiting, oldest first (R150). -/
  replies : List Reply
  /-- `BTH_MALFORMED.COUNT`, saturating (R141). -/
  malCount : Nat
  /-- `BTH_MALFORMED.CAUSE`. -/
  malCause : Byte
  /-- `BTH_EV_PEND0`–`16`. -/
  pend : Vector Word 17
  /-- `BTH_EV_MASK0`–`16`. -/
  mask : Vector Word 17
  /-- `BTH_SLOTSn_LO`/`_HI`: key slots given to the booth. -/
  slots : DWord
  /-- `BTH_CARS.TYPES`. -/
  cars : Half
  /-- `BTH_RDS.GROUPS`. -/
  rdsMask : Half
  /-- `BTH_RDS.RAW`. -/
  rdsRaw : Bool
  /-- `BTH_WALK_FAULT`. -/
  walkFault : Word
  /-- `BTH_RTN.STATE`. -/
  rtnState : RtnState
  /-- `BTH_RTN.CODE_LEN`, bytes. -/
  codeLen : Nat
  /-- Delivery count c (R324). -/
  carCount : Nat
  /-- RDS record count r (R344). -/
  rdsCount : Nat
deriving DecidableEq, Repr

/-- A key slot (R196, R197, R200). -/
structure KeySlot where
  typ : KeyType
  key : Bytes
  gen : Half
  /-- Epoch number of an EPOCH256 key. -/
  epoch : Half
  /-- `CAR` flag of `KEY_INFO`. -/
  fromCar : Bool
deriving DecidableEq, Repr

/-- A written spore cell: value bytes (a step cell: one byte) and budget left (R205). An unwritten cell has no entry. -/
structure SporeCell where
  cell : Nat
  value : Bytes
  left : Nat
deriving DecidableEq, Repr

/-- The Keep's boot record (R91, R95, R99, R103, R403). -/
structure BootRec where
  /-- The active slot. -/
  active : Slot
  /-- State of slot A. -/
  stA : SlotState
  /-- State of slot B. -/
  stB : SlotState
  /-- The path that holds the slot being written (R94). -/
  path : Option LoadPath
  /-- Activation time recorded with the TRIAL mark (R95). -/
  actTime : Word
  /-- The activation has fallen due (R96). -/
  due : Bool
  /-- The trial slot has been started since its activation (R91). -/
  started : Bool
  /-- A confirm's second word write that is still to be made (R99). -/
  floorPend : Option Word
  /-- Retire marker (R103). -/
  retireMark : Bool
deriving DecidableEq, Repr

/-- The door record (R234). -/
structure DoorRec where
  idle : BitVec 3
  inCfg : Half
  timing : Word
  motor : Word
deriving DecidableEq, Repr

/-- Which calibration entry (R240): datacast channel, FM segment in MHz, or band level by divider. -/
inductive CalKey where
  | dc (chan : Half)
  | fm (mhz : Nat)
  | band (divider : Nat)
deriving DecidableEq, Repr

/-- A calibration entry (R240). `crcOk` is false when its CRC, index or word fails. -/
structure CalEntry where
  key : CalKey
  pvt : Nat
  acq : Nat
  gain : Nat
  temp : Int
  crcOk : Bool
deriving DecidableEq, Repr

/-- Stored sequence and hash of the last car applied, per type, and per page for GRANT (R314). -/
structure SeqRec where
  typ : Nat
  page : Nat
  seq : Nat
  hash : Bytes
deriving DecidableEq, Repr

/-- A mast of the MAP (R319). -/
structure MastEnt where
  mast : Half
  chan : Half
  mode : Byte
deriving DecidableEq, Repr

/-- A station of the MAP's FM list (R319). -/
structure FmEnt where
  pi : Half
  freq : Nat
deriving DecidableEq, Repr

/-- A timetable entry (R327), with the cycle of the SCHEDULE car that brought it. -/
structure SchedEnt where
  mast : Half
  chan : Half
  typ : Nat
  everyCycle : Bool
  offMs : Nat
  durMs : Nat
  cycleMs : Nat
  startS : Nat
  startMs : Nat
deriving DecidableEq, Repr

/-- An IMAGE load in progress (R326). -/
structure ImgLoad where
  version : Nat
  total : Nat
  held : List Nat
deriving DecidableEq, Repr

/-- A Lichen log entry (Table 17-2). -/
structure LogEntry where
  seq : Nat
  kind : Byte
  flags : Half
  time : Word
  ms : Half
  unc : Byte
  source : Byte
  body : Bytes
  link : Bytes
deriving DecidableEq, Repr

/-- A checkpoint (Table 17-5). -/
structure Checkpoint where
  covered : Nat
  time : Word
  unc : Word
  chain : Bytes
  sig : Bytes
deriving DecidableEq, Repr

/-- The Lichen log and its checkpoints (R359 to R369), newest first. -/
structure LogNv where
  entries : List LogEntry
  /-- Sequence of the next entry. -/
  next : Nat
  /-- H of the newest entry, or H(−1) (R361). -/
  chain : Bytes
  /-- The newest slot holds KIND 0x00: a torn write (R362). -/
  torn : Bool
  sealed_ : Bool
  /-- `LOG_INFO` flag bit 2 (R368). -/
  overwritten : Bool
  /-- Overwrites of unexported entries since the last release (R368). -/
  overCount : Nat
  /-- Release mark (R367). -/
  release : Nat
  checkpoints : List Checkpoint
deriving DecidableEq, Repr

/-- Nonvolatile state: kept through every reset and power loss. -/
structure Nv where
  br : BootRec
  keys : Vector KeySlot 64
  spore : List SporeCell
  log : LogNv
  doorRec : Option DoorRec
  /-- Calibration table: its header word, and its entries (R87, R240). -/
  calHeader : Bool
  calTab : List CalEntry
  /-- Trim estimates per temperature bin, newest first, at most 4, in parts per billion (R355). -/
  trim : Vector (List Int) 11
  /-- Revocation set: IDs in rising order (R219). -/
  revoked : List Nat
  /-- Where each ID stands: its bucket, or the stash (R220). -/
  revPlace : List (Nat × Option (BitVec 16))
  /-- The set is full (R220). -/
  revFull : Bool
  /-- Behind (R321). -/
  behind : Bool
  /-- Removals still to make after a delta's commit (R321). -/
  pendRemove : List Nat
  /-- Revocation hashing key (chapter 11). -/
  revHashKey : BitVec 128
  /-- Order in which recent-table entries were last granted: entry indices, least recent first (R223, R408). -/
  recentOrder : List Nat
  /-- Car epoch (R314). -/
  carEpoch : Half
  /-- Stored sequences (R314). -/
  seqs : List SeqRec
  /-- Stored delta sequence (R321, R322). -/
  deltaSeq : Nat
  /-- SEQ of the last completed snapshot (R322). -/
  snapDone : Nat
  imgLoad : Option ImgLoad
  masts : List MastEnt
  fmList : List FmEnt
  sched : List SchedEnt
  /-- Bytes of the slot being written: offset and length of each write (R94). -/
  imgWrote : List (Nat × Nat)
deriving DecidableEq, Repr

/-- An instant that is referred to later (R318, R354, R356): the RTC period, the trim-corrected RTC time counted up to it, in
fine units, and the RTC periods spent in each temperature bin up to it. -/
structure Instant where
  tick : Nat
  mono : Nat
  bins : Vector Nat 11
deriving DecidableEq, Repr

def Instant.zero : Instant := { tick := 0, mono := 0, bins := Vector.replicate 11 0 }

/-- The anchor of R356. -/
structure Anchor where
  /-- The beacon's reference instant. -/
  ref : Instant
  /-- Sum of the offsets applied since, in fine units. -/
  sum : Int
deriving DecidableEq, Repr

/-- The always-on domain (R67, R351): kept while VIN holds, lost with it. -/
structure Ao where
  /-- RTC periods counted: the model's clock (log 1). -/
  rtc : Nat
  /-- Trim-corrected RTC time counted so far, in fine units, which no beacon steps (R354). -/
  mono : Nat
  /-- RTC periods spent in each temperature bin so far (R356). -/
  binTicks : Vector Nat 11
  /-- Device time is known (R351). -/
  known : Bool
  /-- Device time in fine units of 1/(24·32768·10⁹) s: the fraction of 1/32 768 s and the trim's part below it (R350). -/
  fine : Nat
  /-- U in units of 1/(144·32768·10⁶) ms; none while unknown (R352). -/
  u : Option Nat
  /-- Present temperature bin (R353). -/
  bin : Fin 11
  /-- RTC tick of the latest tracking pass. -/
  passTick : Nat
  anchor : Option Anchor
  /-- RTC tick of the last applied beacon. -/
  beaconTick : Option Nat
  /-- The RTC runs on its RC oscillator, and the record of that loss has been written (R396). -/
  rcSource : Bool
  rcTold : Bool
  /-- EV_TIME_UNSURE stands (U above 600 000 ms has been reported, R353). -/
  unsure : Bool
  /-- `LOCAL_OFS` of the last TIME car, minutes (R354). -/
  localOfs : Int
  /-- Announced leap: 0 none, 1 insert, 2 delete; and `LEAP_AT` (R350). -/
  leap : Nat
  leapAt : Nat
  /-- Tamper latch (R59), its DURING_START mark, and its polarity (R172). -/
  tamper : Bool
  tamperStart : Bool
  tamperLow : Bool
  /-- Causes of the present reset, and causes asserted since the last running phase, bit code − 1 (R82). -/
  causes : BitVec 11
  seen : BitVec 11
  /-- The powering down behind a BROWNOUT cause came from the VSYS supervisor (R82). -/
  vsysTrip : Bool
  /-- The next start follows powering down with the domain kept (R67). -/
  afterDown : Bool
  /-- Consecutive resets with primary cause KEEP_FAULT (R85). -/
  keepFaults : Nat
deriving DecidableEq, Repr

/-- Supplies, tracking, gates and leases (chapters 2 and 4). -/
structure Pwr where
  vinOk : Bool
  vsysOk : Bool
  vddioOk : Bool
  vnvmOk : Bool
  vsysLimit : Bool
  battLow : Bool
  battEnd : Bool
  /-- The internal rails are good: PGOOD is not driven low (Table 3-6). -/
  pgood : Bool
  /-- `PWR_TRACK_CTRL`. -/
  trackCtrl : Word
  /-- `PWR_VCORE_STAT` fields (Table 2-2). -/
  level : Nat
  floorSrc : Nat
  raising : Bool
  limit : Bool
  /-- Level at which each block was last floor-setting since reset (R28), by block code. -/
  lastFloor : Vector (Option Nat) 11
  /-- Gated blocks waiting for the pre-raise level (R28), bits of Table 4-7, and that level. -/
  releasing : BitVec 9
  preTarget : Nat
  /-- `PWR_VIN_MON`. -/
  idleMv : Half
  loadMv : Half
  /-- Runs of consecutive readings (R71): idle and loaded below LOW, below END; idle 200 mV above. -/
  idleLow : Nat
  loadLow : Nat
  idleEnd : Nat
  loadEnd : Nat
  idleHigh : Nat
  /-- `PWR_BATT_CFG`, `PWR_TCXO_CFG`. -/
  battCfg : Word
  tcxoCfg : Word
  /-- Gate registers (R74) and lease (R76). -/
  gateReq : BitVec 9
  gateStat : BitVec 9
  /-- The device has woken and no idle VIN reading has been taken since (R69). -/
  wakeDue : Bool
  /-- The passes of every 250 µs go on after the last gating (R26). -/
  fastPass : Bool
  gatePend : BitVec 9
  leased : BitVec 5
  override_ : BitVec 5
  /-- Die temperature at the latest measurement, °C. -/
  dieTemp : Int
  /-- Lowest VIN sampled in the latch sequence in progress (R69). -/
  loadMin : Option Half
deriving DecidableEq, Repr

/-- Boot status (chapter 5). -/
structure Boot where
  /-- `BOOT_CAUSE` as written for this reset. -/
  causeReg : Word
  /-- Primary cause of the reset that ended last. -/
  cause : Option Cause
  /-- The device drives NRST low (R84). -/
  nrstDrive : Bool
  /-- The Keep has written the boot registers (R105). -/
  written : Bool
  slot : Slot
  trial : Bool
  fallback : Bool
  trialFailed : Bool
  ready : Bool
  calRebuilt : Bool
  dbg : DbgState
  nonce : Option Bytes
  dbgBad : Nat
  /-- VERSION, TRIAL_S and SELF_CONFIRM of the running image. -/
  version : Word
  trialS : Nat
  selfConfirm : Bool
  /-- RTC tick at which the trial watchdog started (R97). -/
  trialStart : Option Nat
  /-- A slot is selected and verified: the Keep may release the Ringmaster (R86). -/
  verified : Bool
  loader : Bool
  /-- The Keep has stopped in booting (R85). -/
  stopped : Bool
  /-- EV_IMG_READY / EV_IMG_INVALID pending on the loader's event port (R93). -/
  loaderReady : Bool
  loaderInvalid : Bool
  /-- A DEV_RESET whose reply is placed: sender and tag (Table 7-2). -/
  devReset : Option (Booth × Byte)
  /-- The slot whose check of R94 runs. -/
  imgCheck : Option Slot
  /-- The owner public key the Keep holds (R405). -/
  ownerKey : Option Bytes
deriving DecidableEq, Repr

/-- The host bus (chapter 6). -/
structure Hb where
  /-- `HB_STRAP`: CODE and BASE once sensed. -/
  strap : Option (Nat × BitVec 7)
  /-- `HB_ADDR_CFG`, and an accepted write that waits for the end of its transaction (R108). -/
  addrCfg : Word
  addrPend : Option Word
  /-- `HB_CFG`. -/
  cfg : Word
  asleep : Bool
  /-- RTC tick before which a WAKE_MODE 1 wake keeps the device awake (R118). -/
  awakeTill : Nat
  /-- Selections (R111): one per booth, and the one of single mode with its booth. -/
  sel : Vector Port 8
  singleBooth : Booth
  singleSel : Port
  /-- Booths with an in-band request that nothing has satisfied or dropped (R121 to R124). -/
  ibrReq : BitVec 8
  /-- The booth whose request is on the bus. -/
  ibrBusy : Option Booth
  /-- Quiet after a timeout, until a controller addresses the device or 100 ms pass: the tick that ends it (R124). -/
  ibrQuiet : Option Nat
  /-- Bytes the device last sent to the reader of a bus, and whether the last transfer was acknowledged to its end
  (the model's own observation, log 5). -/
  out : Bytes
  ack : Bool
deriving DecidableEq, Repr

/-- Booths and the service table (chapters 2, 7, 9). -/
structure Cmd where
  booths : Vector BoothSt 8
  svc : List Svc
  /-- The car that DC_INJECT chunks have built so far, and its total length. -/
  inject : Option (Bytes × Nat)
  /-- `EVR_ROUTE0`–`16` bits [7:0], `EVR_SIG`. -/
  route : Vector Byte 17
  sig : Word
deriving DecidableEq, Repr

/-- What an engine operation computes (R193). -/
inductive JobOp where
  | aesCrypt (slot : Nat) (mode : Nat) (ctr data : Bytes)
  | cmac (slot : Nat) (len : Nat) (msg : Bytes)
  | derive_ (inp out : Nat) (typ : KeyType) (ctx : Bytes)
  | load (slot : Nat) (typ : KeyType) (wrap : Nat) (blob : Bytes)
  | random (count : Nat)
  | sha (msg : Bytes)
  | edVerify (pk sig msg : Bytes)
  | edSign (slot : Nat) (msg : Bytes)
  /-- `LC_PROVISION`, and a signed transition with its signature (R102). -/
  | provision
  | lifeMove (target : LifeCycle) (sig : Bytes)
  /-- A signature written to the debug port, with the nonce it answers; no command waits for it (R104). -/
  | dbgSig (nonce : Option Bytes) (sig : Bytes)
deriving DecidableEq, Repr

/-- A command's operation on an engine. -/
structure Job where
  booth : Booth
  tag : Byte
  op : JobOp
deriving DecidableEq, Repr

/-- What an engine runs: a command's operation with its generation snapshots (R201) and the status with which its first
read of its slots ends it; the car at the head of the verification queue; or a checkpoint whose fields are fixed (R364). -/
inductive Running where
  | cmd (job : Job) (snap : List (Nat × Half)) (early : Option Status)
  | car
  | checkpoint (cp : Checkpoint)
deriving DecidableEq, Repr

/-- An engine: what it runs, and the commands waiting for it in order of acceptance (R193). -/
structure Engine where
  cur : Option Running
  queue : List Job
deriving DecidableEq, Repr

/-- The Keep's volatile state (chapter 10). -/
structure Keep where
  aes : Engine
  hash : Engine
  /-- A health test is failing (R210). -/
  rngFailing : Bool
  /-- Draws from the DRBG so far: the free-value counter (log 9). -/
  draws : Nat
  /-- DRBG requests since the last reseed; reseeds and instantiations so far (R209). -/
  drbgReqs : Nat
  drbgSeeds : Nat
  /-- A request has been made since the last wake from sleep (R209). -/
  drbgUsed : Bool
  /-- A car's key-slot write is held back by a verdict's re-run (R203). -/
  held : Bool
  /-- A checkpoint is requested and waits for the engine (R364). -/
  cpWanted : Bool
deriving DecidableEq, Repr

/-- How a credential came in (Table 11-2). -/
inductive Via where
  | host (booth : Booth) (tag : Byte)
  | pbus (source : Byte)
deriving DecidableEq, Repr

/-- A credential whose intake has completed (R213). -/
structure Cred where
  token : Bytes
  via : Via
deriving DecidableEq, Repr

/-- A member of a verdict window (R224). -/
structure Member where
  token : Bytes
  via : Via
  /-- Verdict code in force (Table 11-4, Table 11-6). -/
  code : Byte
  /-- Code of its own checks, before the window rules. -/
  own : Byte
  /-- Passed checks 1 to 5 (repeat rule of R224). -/
  tagged : Bool
  /-- A repeat: it has no log entry of its own. -/
  dup : Bool
  /-- Log sequence assigned (R216), or all ones when sealed. -/
  seq : Nat
  /-- Window ordinal of its log entry (Table 17-3). -/
  ordinal : Nat
  flags : Half
  time : Word
  ms : Half
  unc : Byte
deriving DecidableEq, Repr

/-- A verdict window (R224, R226): members judged so far, oldest first; credentials of it still in the intake queue;
whether it has closed, with the latch state then; EV_REVOKED_SEEN raised. -/
structure Win where
  members : List Member
  expect : Nat
  closed : Bool
  latchAt : Byte
  revSeen : Bool
deriving DecidableEq, Repr

/-- A log entry before it is written (R359): everything but its sequence and link. -/
structure PreEntry where
  kind : Byte
  flags : Half
  time : Word
  ms : Half
  unc : Byte
  source : Byte
  body : Bytes
deriving DecidableEq, Repr

/-- The verdict engine (chapter 11). -/
structure Vd where
  /-- Credentials waiting for the engine, in order of intake (R215). -/
  intake : List Cred
  /-- Windows: the one that is open, last, and closed ones that wait for their last verdicts. -/
  windows : List Win
  /-- Log entries with assigned sequences that are not yet written: none for a verdict whose window is not finished
  (R216, R226). The first has sequence `nv.log.next`. -/
  wait : List (Option PreEntry)
  /-- Last verdict: code and log sequence (DOOR_STATUS). -/
  last : Option (Byte × Nat)
  /-- Result byte of 0x3C (R136). -/
  result : Byte
  /-- The device is powering down or entered hold-safe: verdicts start no movement (R226, R381). -/
  noMove : Bool
deriving DecidableEq, Repr

/-- Latch states 0 to 6 (Table 11-7, R230, R231). -/
inductive LatchState where
  | idle | opening | dwell | waiting | closing | held | fault
deriving DecidableEq, Repr

/-- What the dead time of R228 leads to. -/
inductive AfterDead where
  | open_ | close
deriving DecidableEq, Repr

/-- A GP pin's assignment (R146). -/
structure GpAssign where
  booth : Option Booth
  out : Bool
deriving DecidableEq, Repr

/-- Door inputs, outputs and the latch (chapters 3 and 11). -/
structure Door where
  /-- `DOOR_REST` codes of LATCH_A, LATCH_B, DRV_EN, GP0–GP3. -/
  rest : Vector RestCode 7
  /-- Drive of the seven rest-sensed pins. -/
  pins : Vector PinDrive 7
  /-- Door registers (Table 8-9). -/
  outCfg : Word
  inCfg : Word
  timing : Word
  motor : Word
  ledCfg : Word
  /-- STATUS_LED: sinking now, and the setting in force (R170). -/
  ledOn : Bool
  ledCur : Word
  /-- Debounced inputs, after polarity: DOOR_SENSE, HANDLE_IN, TAMPER_IN, CRED_WAKE. -/
  open_ : Bool
  handle : Bool
  tamperIn : Bool
  credWake : Bool
  /-- RTC tick of the last HANDLE_IN assertion (R232). -/
  handleTick : Option Nat
  privacy : Bool
  latch : LatchState
  /-- The sequence in progress was started by a grant of the open window (R225). -/
  byGrant : Bool
  /-- The sequence runs on a motor lock (R227). -/
  motorLock : Bool
  /-- Dwell in milliseconds of the sequence in progress. -/
  dwellMs : Nat
  /-- Action 1 of LATCH_CMD: stay in the dwell (R231). -/
  holdOpen : Bool
  /-- `DOOR_TIMING` and `DOOR_MOTOR_CFG` the sequence started with (R171). -/
  seqTiming : Word
  seqMotor : Word
  /-- In the 1 ms dead time of R228, and what follows. -/
  dead : Option AfterDead
  /-- A closing MOTOR_TIMEOUT waits for its one retry, and whether the retry is being made (R230). -/
  retryWait : Bool
  retried : Bool
  /-- HELD idle outputs stay released after a DRIVE fault (R230). -/
  driveHold : Bool
  /-- GP assignments, and the levels the board gives GP0–GP3 where the device does not drive them (log 17). -/
  gp : Vector GpAssign 4
  gpExt : BitVec 4
deriving DecidableEq, Repr

/-- A PBUS transfer in progress (R128 to R131). -/
structure Xfer where
  booth : Booth
  tag : Byte
  addr : Byte
  data : Bytes
  count : Nat
  lost : Nat
  /-- On the bus, its clock held by the peripheral; otherwise backing off before a retry. -/
  onBus : Bool
  /-- The transfer waits for the pre-raise of the PBUS engine (R28), and what it meets once it starts. -/
  wait : Option PbusRun
deriving DecidableEq, Repr

/-- The PBUS (chapter 6). -/
structure Pb where
  cfg : Word
  /-- `PB_STAT` fields; `INTAKE` is counted in the intake queue. -/
  disabled : Bool
  arbLost : Nat
  badReports : Nat
  own : Vector Word 8
  xfer : Option Xfer
  /-- Transfers accepted behind it. -/
  queue : List Xfer
deriving DecidableEq, Repr

/-- Radio states (Table 12-3). -/
inductive RxMode where
  | sleep | standby | datacast | fm | calibrating
deriving DecidableEq, Repr

/-- A frame whose header has decoded (R301): its header fields, the RTC period of its first sample and that reference
instant (R318), the frequency correction frozen at the end of the long training and the symbol timing (R300), and the payload symbols that blanking has
made erasures (R303). -/
structure Frame where
  mode : Nat
  nsym : Nat
  seed : Nat
  start : Nat
  ref : Instant
  corrHz : Int
  timing : Int
  erased : List Nat
deriving DecidableEq, Repr

/-- A datacast window (R246). -/
structure Window where
  chan : Half
  mast : Half
  /-- Car types the window is needed for, bit t (R331). -/
  types : Half
  /-- The DC_LISTEN command that opened it. -/
  cmd : Option (Booth × Byte)
  frames : Nat
  cars : Nat
  /-- Opened; else the window still waits for COEX_GNT (R257), or the radio is not started (Table 5-3, RETIRED). -/
  opened : Bool
  /-- Another window follows within 2 ms (return state, R246). -/
  another : Bool
  /-- The end time has passed while a frame with a decoded header is received (R246). -/
  ending : Bool
  blankLong : Bool
  saturated : Bool
  heard : Bool
  /-- Car types heard and applied in the window, bit t (R329, R330). -/
  got : Half
  applied : Half
  /-- RTC periods at which the window of a learned slot opens and closes by its prediction (R330). -/
  plan : Option (Nat × Nat)
deriving DecidableEq, Repr

/-- What the device has learned of a slot: channel, mast, car type (R329, R330). -/
structure SlotLearn where
  chan : Half
  mast : Half
  typ : Nat
  /-- Windows in a row with no car heard. -/
  empty : Nat
  /-- Cycles in a row in which the needed car was missed. -/
  missed : Nat
  /-- Errors of the last 4 observed starts against the prediction, in RTC periods. -/
  errs : List Int
  /-- Sequence and RTC period of the last car, and the interval between two receptions of the same car. -/
  last : Option (Nat × Nat)
  cycle : Option Nat
  /-- The slot is being learned again over one full cycle. -/
  relearn : Bool
deriving DecidableEq, Repr

/-- A `DC_LISTEN` that waits for the window in progress to end, with the environment its window will meet. -/
structure ListenReq where
  booth : Booth
  tag : Byte
  chan : Half
  ms : Nat
  env : WindowEnv
deriving DecidableEq, Repr

/-- Radio, synthesiser, clock outputs and coexistence (chapter 12). -/
structure Rx where
  mode : RxMode
  /-- `RX_STATE.INPUT`: true for RFIN_V. -/
  inputV : Bool
  chan : Half
  evm : Byte
  lqi : Byte
  rssi : Byte
  clk0 : Word
  clk1 : Word
  coexCfg : Word
  refOk : Bool
  /-- The reference has been lost and has not returned (R250). -/
  refLost : Bool
  lock : Bool
  /-- The synthesiser runs; it has not locked yet after its start or after CLKOUT1 was enabled (R248, R253). -/
  synOn : Bool
  settling : Bool
  /-- CLKOUT1 has not settled on a new setting yet (R167). -/
  clk1Settling : Bool
  /-- Frequency control word (8 integer and 24 fraction bits) and divider D of the last retune (R238); none since reset. -/
  fcw : Option (BitVec 32 × Nat)
  /-- Ratio of the fractional divider of CLKOUT1, with 24 fraction bits (R253). -/
  clk1Ratio : Nat
  dllLock : Bool
  clk0On : Bool
  clk1On : Bool
  window : Option Window
  /-- Waiting `DC_LISTEN` commands, in order of acceptance. -/
  listens : List ListenReq
  frame : Option Frame
  /-- DC_STOP until DC_START. -/
  stopped : Bool
  coexReq : Bool
  coexPri : Bool
  /-- Levels at BLANK_A and BLANK_B, true for high (R258). -/
  blankA : Bool
  blankB : Bool
  /-- Spans of zeroed samples, in RTC periods, newest first (R258, R303, R334). -/
  blanks : List (Nat × Nat)
  /-- `FRAME_SEQ` and `MAST_ID` of the last good frame; channel of the last good own-property frame (R298, R329). -/
  lastSeq : Half
  lastMast : Half
  lastChan : Option Half
  /-- Channel whose entry a background calibration refreshes (R242). -/
  calBg : Option Half
  /-- RTC second of the last EV_FRD_SAT under FM (R265). -/
  satTick : Option Nat
  /-- Last 8 LQIs per mast (R329). -/
  lqis : List (Half × List Nat)
  chosen : Option Half
  /-- The slots learned so far (R329, R330). -/
  slots : List SlotLearn
  /-- RTC period of the last good frame of each mast (R330). -/
  heardAt : List (Half × Nat)
  /-- Device second of the last MAP and SCHEDULE car heard, by type, and of the last window that refreshed a mast's mean
  (R329, R331). -/
  dailyCars : List (Nat × Nat)
  refreshed : List (Half × Nat)
deriving DecidableEq, Repr

/-- A fault record (Table 13-5). -/
structure FaultRec where
  cause : BitVec 7
  nested : Bool
  lane : Byte
  pc : Nat
  addr : Nat
deriving DecidableEq, Repr

/-- The running routine (Table 13-3, R273, R278). -/
structure Run where
  booth : Booth
  tag : Byte
  r : Vector Half 8
  a : Vector Half 4
  v : Vector Half 16
  acc0 : Int
  acc1 : Int
  z : Bool
  n : Bool
  vf : Bool
  s : Bool
  /-- Word index of the next instruction. -/
  pc : Nat
  vector : Option Nat
  handler : Bool
  flt : FaultRec
  /-- RESUME has the faulting instruction executed again; the handler state is left after it (R278). -/
  resuming : Bool
  /-- Lane from which a resumed gather starts (R278), used once. -/
  gatherFrom : Option Nat
deriving DecidableEq, Repr

/-- A routine start in order of acceptance (R271). -/
structure RtnReq where
  booth : Booth
  tag : Byte
  entry : Nat
  args : Bytes
deriving DecidableEq, Repr

/-- A complex sample: I and Q (R260). -/
abbrev Sample := Int × Int

/-- The paths through the fronds (R259, R269): datacast, FM, and FM in fast-settle. -/
inductive ChainPath where
  | datacast | fm | fast
deriving DecidableEq, Repr

/-- Response sets (chapter 13). -/
inductive RespSet where
  | d | f | s | w
deriving DecidableEq, Repr

/-- A half-band decimator: its delay line, newest sample first, and whether its next input yields no output. -/
structure Frond where
  line : List Sample
  skip : Bool
deriving DecidableEq, Repr

def Frond.start : Frond := { line := [], skip := false }

/-- The frond chain (R259 to R266). -/
structure Chain where
  path : ChainPath
  fronds : Vector Frond 7
  /-- The three audio passes of frond 7 (R264). -/
  audio : Vector Frond 3
  /-- Phase of the multiplication between fronds 4 and 5, in 1/512 of a turn (R259). -/
  mixN : Nat
  /-- ADC samples since the start of LISTEN or the retune, and the count from which audio flows (R266, R337). -/
  count : Nat
  need : Nat
  /-- The chain's last output, and the last pair of 32 kHz audio samples (R259, R264). -/
  out : Sample
  audioOut : Sample
  /-- The last pair of audio samples the demodulator gave (R334). -/
  lastAudio : Sample
  /-- ADC samples that stay zero after blanking has been released (R258). -/
  blankTail : Nat
  /-- Audio samples that are zero because the firmware missed its deadline (Table 18-2). -/
  mute : Nat
deriving DecidableEq, Repr

/-- The detectors (R267): `FRD_PEAK`, `FRD_RMS`, the envelope, and the RMS block in progress. -/
structure Det where
  peak : Nat
  rms : Nat
  env : Int
  sum : Nat
  count : Nat
deriving DecidableEq, Repr

/-- Fronds and Juggler (chapter 13). -/
structure Jug where
  detCfg : Word
  fmShift : Word
  chain : Chain
  det : Det
  released : Bool
  /-- Program memory: the Juggler section of the running image, and its entry (R87). -/
  prog : Bytes
  progEntry : Nat
  rtnCfg : Word
  code : Memory
  win : Memory
  run : Option Run
  queue : List RtnReq
  paused : Bool
deriving DecidableEq, Repr

/-- A car being reassembled (R308, R309). -/
structure Partial where
  mast : Half
  tag : Half
  last : Nat
  frags : List (Nat × Bytes)
  /-- The reference instant (R318). -/
  ref : Instant
deriving DecidableEq, Repr

/-- A car in the verification queue (R315, R316). -/
structure QCar where
  bytes : Bytes
  mast : Half
  ref : Instant
  /-- The DC_INJECT command that waits for it. -/
  cmd : Option (Booth × Byte)
deriving DecidableEq, Repr

/-- A snapshot in progress (R322). -/
structure Snap where
  seq : Nat
  deltaSeq : Nat
  count : Nat
  held : List Nat
  seen : List Nat
  allPlaced : Bool
  sweeping : Bool
deriving DecidableEq, Repr

/-- The carousel receiver's volatile state (chapter 15). -/
structure Car where
  /-- Partial cars, the one with the oldest latest fragment first (R309). -/
  partials : List Partial
  queue : List QCar
  /-- The counters of R328, in the order of `DC_COUNTERS`. -/
  counters : Vector Nat 8
  /-- Types whose EV_SEQ_FROZEN has been raised while frozen (Table 15-2). -/
  frozenTold : Half
  snap : Option Snap
  watermarks : Vector Nat 11
deriving DecidableEq, Repr

/-- The FM hold (R332). -/
structure FmHold where
  booth : Booth
  freq : Nat
  flags : Byte
deriving DecidableEq, Repr

/-- An FM_TUNE waiting for its measurement (R333): its calibration failed (R243), and the frequency held before it. -/
structure FmTune where
  booth : Booth
  tag : Byte
  calFailed : Bool
  prev : Nat
deriving DecidableEq, Repr

/-- An FM_SCAN in progress (R339). -/
structure FmScan where
  booth : Booth
  tag : Byte
  start : Nat
  stop : Nat
  step : Nat
  thr : Int
  prev : Option FmHold
deriving DecidableEq, Repr

/-- A command of the holder that waits behind the one in progress (R145). -/
inductive FmReq where
  | tune (booth : Booth) (tag : Byte) (freq : Nat) (flags : Byte) (cal : CalRun)
  | scan (booth : Booth) (tag : Byte) (start stop step : Nat) (thr : Int) (cal : CalRun)
deriving DecidableEq, Repr

/-- A value that counts once it has been seen twice in a row (Table 16-5): the value seen last and the value confirmed,
each with whether a corrected block gave it. -/
structure Twice where
  last : Option (Nat × Bool)
  conf : Option (Nat × Bool)
deriving DecidableEq, Repr

/-- A list of alternative frequencies as received: its codes, whether a corrected block gave one, and whether it has been
received twice. -/
structure AfList where
  codes : List Nat
  corr : Bool
  twice : Bool
  sent : Bool
deriving DecidableEq, Repr

/-- RDS decoder items (R341 to R343). -/
structure Rds where
  sync : Bool
  /-- Error-free blocks in a row, up to 3, and erased blocks in a row (R341). -/
  run : Nat
  erased : Nat
  /-- PI seen, and PI last delivered. -/
  piSeen : Twice
  piSent : Option Nat
  /-- PS segments since the PI was confirmed. -/
  ps : Vector Twice 4
  psSent : Option Bytes
  /-- TP and TA, and the pair last delivered. -/
  tp : Twice
  ta : Twice
  tatpSent : Option (Nat × Nat)
  /-- AF codes collected, codes still missing, an LF/MF code follows, and the lists received. -/
  afCodes : List Nat
  afMissing : Nat
  afSkip : Bool
  afCorr : Bool
  afLists : List AfList
  /-- ECC and PIN, and the pair last delivered. -/
  ecc : Twice
  pin : Twice
  pinSent : Option (Nat × Nat)
  /-- RadioText: A/B flag and version, segments held, last delivered text. -/
  rtAb : Option (Bool × Bool)
  rtSegs : List (Nat × Bytes × Bool)
  rtSent : Option Bytes
  /-- Pairs of application group type and AID delivered. -/
  oda : List (Nat × Nat)
deriving DecidableEq, Repr

/-- The confirmed PI (Table 16-5). -/
def Rds.pi (r : Rds) : Option Nat := r.piSeen.conf.map (·.1)

/-- FM reception (chapter 16). -/
structure Fm where
  hold : Option FmHold
  tune : Option FmTune
  scan : Option FmScan
  /-- Commands of the holder behind the one in progress, in order of acceptance. -/
  waiting : List FmReq
  /-- The I²S pins run (R337). -/
  i2s : Bool
  rds : Rds
  /-- Same-programme alternative frequencies of the delivered AF list (R347). -/
  af : List Nat
  /-- Candidates marked bad, with the RTC tick that ends it (R348). -/
  afBad : List (Nat × Nat)
  /-- RTC tick of the last check's start (R346). -/
  afTick : Option Nat
  /-- A switch being verified: previous frequency, the held PI, groups in a row with that PI (R348). -/
  afTry : Option (Nat × Nat × Nat)
  /-- Minutes of the CT samples taken, by their own time (R349). -/
  ctMinutes : List Int
  /-- Runs of gross and non-gross CT samples, `CT_DISAGREE`, and the tick of the last comparison (R357, R358). -/
  ctGross : Nat
  ctFine : Nat
  ctDisagree : Bool
  ctTick : Option Nat
deriving DecidableEq, Repr

/-- An error record (Table 8-9, Table 18-2). -/
structure ErrRec where
  code : BitVec 12
  nested : Bool
  time : Word
  w2 : Word
  w3 : Word
deriving DecidableEq, Repr

/-- Error records and memory errors (chapter 18). -/
structure Err where
  aValid : Bool
  bValid : Bool
  recA : ErrRec
  recB : ErrRec
  overflow : Nat
  /-- Words that hold an uncorrectable error now, and those already reported (R383, R384). -/
  bad : List (EccSpace × Nat)
  told : List (EccSpace × Nat)
  /-- RTC second of the last EV_ECC_CORRECTED (R384). -/
  corrTick : Option Nat
deriving DecidableEq, Repr

/-- The whole block. -/
structure State where
  /-- Commands waiting, first in first out (the model's own). -/
  pending : List Instr
  phase : Phase
  nv : Nv
  /-- Physical memory of Table 9-2: SRAM booth data, table region, image slots, rights, recent table and schedules,
  booth store. -/
  mem : Memory
  ao : Ao
  pwr : Pwr
  boot : Boot
  hb : Hb
  cmd : Cmd
  keep : Keep
  vd : Vd
  door : Door
  pb : Pb
  rx : Rx
  jug : Jug
  car : Car
  fm : Fm
  err : Err
  /-- Counter of free values (log 4). -/
  free : Nat
deriving DecidableEq, Repr

/-! ### The values after reset

Values the spec gives are cited; every other value is the model's choice (log 6). -/

/-- A booth after reset: disabled, nothing pending (Table 8-3, Table 8-6). -/
def BoothSt.start : BoothSt :=
  { mode := .disabled, depth := 0, replies := [], malCount := 0, malCause := 0, pend := Vector.replicate 17 0,
    mask := Vector.replicate 17 0, slots := 0, cars := 0, rdsMask := 0, rdsRaw := false, walkFault := 0,
    rtnState := .none_, codeLen := 0, carCount := 0, rdsCount := 0 }

/-- Booth 0 after reset: enabled with depth 8, every key slot (Table 8-3). -/
def BoothSt.owner : BoothSt := { BoothSt.start with mode := .enabled, depth := 8, slots := BitVec.allOnes 64 }

/-- An empty key slot. -/
def KeySlot.empty : KeySlot := { typ := .empty, key := [], gen := 0, epoch := 0, fromCar := false }

/-- The bytes of a vector of `8 * n` bits, most significant byte first. -/
def bytesOf (n w : Nat) (v : BitVec w) : Bytes :=
  (List.range n).map fun i => (v >>> (8 * (n - 1 - i))).truncate 8

/-- The device as shipped (R403): BLANK, slot 0 holds the transport key, slot B is named active, both slots EMPTY. -/
def Nv.shipped : Nv :=
  { br := { active := .b, stA := .empty, stB := .empty, path := none, actTime := 0, due := false, started := false,
            floorPend := none, retireMark := false }
    keys := (Vector.replicate 64 KeySlot.empty).set 0
              { typ := .wrap256, key := bytesOf 32 256 Config.transportKey, gen := 0, epoch := 0, fromCar := false }
    spore := []
    log := { entries := [], next := 0, chain := [], torn := false, sealed_ := false, overwritten := false,
             overCount := 0, release := 0, checkpoints := [] }
    doorRec := none, calHeader := false, calTab := [], trim := Vector.replicate 11 [], revoked := [], revPlace := [], revFull := false
    behind := false, pendRemove := [], revHashKey := 0, recentOrder := [], carEpoch := 0, seqs := [], deltaSeq := 0
    snapDone := 0, imgLoad := none, masts := [], fmList := [], sched := [], imgWrote := [] }

/-- The always-on domain just started from zero: time unknown (R351). -/
def Ao.start : Ao :=
  { rtc := 0, mono := 0, binTicks := Vector.replicate 11 0, known := false, fine := 0, u := none, bin := 0, passTick := 0
    anchor := none, beaconTick := none
    rcSource := false, rcTold := false, unsure := false, localOfs := 0, leap := 0, leapAt := 0, tamper := false, tamperStart := false
    tamperLow := false, causes := 0, seen := 0, vsysTrip := false, afterDown := false, keepFaults := 0 }

/-- Tables 2-2, 4-2 and the reset values of R69, R70, R72, R74, R76. -/
def Pwr.start : Pwr :=
  { vinOk := true, vsysOk := true, vddioOk := true, vnvmOk := true, vsysLimit := false, battLow := false
    battEnd := false, pgood := true, trackCtrl := 0x2300, level := 35, floorSrc := 0, raising := false, limit := false
    lastFloor := Vector.replicate 11 none, wakeDue := false, fastPass := false, releasing := 0, preTarget := 0,
    idleMv := 0, loadMv := 0xFFFF, idleLow := 0
    loadLow := 0, idleEnd := 0, loadEnd := 0, idleHigh := 0, battCfg := 0x5E64, tcxoCfg := 0x300, gateReq := 0
    gateStat := 0x1FF, gatePend := 0, leased := 0, override_ := 0, dieTemp := 0, loadMin := none }

/-- Before the Keep has written the boot registers they read 0 (R105). -/
def Boot.start : Boot :=
  { causeReg := 0, cause := none, nrstDrive := false, written := false, slot := .a, trial := false
    fallback := false, trialFailed := false, ready := false, calRebuilt := false, dbg := .closed, nonce := none
    dbgBad := 0, version := 0, trialS := 0, selfConfirm := false, trialStart := none
    verified := false, loader := false, stopped := false, loaderReady := false, loaderInvalid := false
    devReset := none, imgCheck := none, ownerKey := none }

/-- R107, R111, R120. -/
def Hb.start : Hb :=
  { strap := none, addrCfg := 0x700, addrPend := none, cfg := 0x000A0002, asleep := false, awakeTill := 0
    sel := Vector.replicate 8 .reply, singleBooth := 0, singleSel := .reply, ibrReq := 0, ibrBusy := none
    ibrQuiet := none, out := [], ack := false }

/-- Table 8-6. -/
def Cmd.start : Cmd :=
  { booths := (Vector.replicate 8 BoothSt.start).set 0 BoothSt.owner, svc := [], inject := none
    route := Vector.replicate 17 1, sig := 1 }

def Engine.start : Engine := { cur := none, queue := [] }

def Keep.start : Keep :=
  { aes := Engine.start, hash := Engine.start, rngFailing := false, draws := 0, drbgReqs := 0, drbgSeeds := 0
    drbgUsed := false, held := false, cpWanted := false }

def Vd.start : Vd := { intake := [], windows := [], wait := [], last := none, result := 0, noMove := false }

/-- Tables 3-5 and 8-9. -/
def Door.start : Door :=
  { rest := Vector.replicate 7 .unsensed, pins := Vector.replicate 7 .z, outCfg := 0, inCfg := 0x1400
    timing := 0x00C81E1E, motor := 0x00050190, ledCfg := 0x000A0500, ledOn := false, ledCur := 0x000A0500
    open_ := false, handle := false, tamperIn := false, credWake := false, handleTick := none, privacy := false
    latch := .idle, byGrant := false, motorLock := true, dwellMs := 0, holdOpen := false
    seqTiming := 0x00C81E1E, seqMotor := 0x00050190, dead := none, retryWait := false, retried := false
    driveHold := false, gp := Vector.replicate 4 { booth := none, out := false }, gpExt := 0 }

/-- Table 6-7. -/
def Pb.start : Pb :=
  { cfg := 0x00190321, disabled := false, arbLost := 0, badReports := 0, own := Vector.replicate 8 0, xfer := none, queue := [] }

/-- Table 8-7. -/
def Rx.start : Rx :=
  { mode := .sleep, inputV := false, chan := 0, evm := 0, lqi := 0, rssi := 0, clk0 := 0, clk1 := 0x65900000
    coexCfg := 0x30, refOk := false, refLost := false, lock := false, synOn := false
    settling := false, clk1Settling := false, fcw := none, clk1Ratio := 0, dllLock := false, clk0On := false, clk1On := false, window := none
    listens := [], frame := none, stopped := false, coexReq := false, coexPri := false, blankA := false, blankB := false
    blanks := [], lastSeq := 0, lastMast := 0, lastChan := none, calBg := none, satTick := none
    lqis := [], chosen := none, slots := [], heardAt := [], dailyCars := [], refreshed := [] }

/-- Empty delay lines, no audio yet (R266, R337). -/
def Chain.start : Chain :=
  { path := .datacast, fronds := Vector.replicate 7 Frond.start, audio := Vector.replicate 3 Frond.start, mixN := 0
    count := 0, need := 41222, out := (0, 0), audioOut := (0, 0), lastAudio := (0, 0), blankTail := 0, mute := 0 }

def Det.start : Det := { peak := 0, rms := 0, env := 0, sum := 0, count := 0 }

/-- Table 8-8. -/
def Jug.start : Jug :=
  { detCfg := 0x407, fmShift := 0, chain := Chain.start, det := Det.start, released := false, prog := [], progEntry := 0, rtnCfg := 0xFF0A, code := []
    win := [], run := none, queue := [], paused := false }

def Car.start : Car :=
  { partials := [], queue := [], counters := Vector.replicate 8 0, frozenTold := 0, snap := none
    watermarks := Vector.replicate 11 0 }

def Twice.start : Twice := { last := none, conf := none }

def Rds.start : Rds :=
  { sync := false, run := 0, erased := 0, piSeen := Twice.start, piSent := none, ps := Vector.replicate 4 Twice.start, psSent := none
    tp := Twice.start, ta := Twice.start, tatpSent := none, afCodes := [], afMissing := 0, afSkip := false
    afCorr := false, afLists := [], ecc := Twice.start, pin := Twice.start, pinSent := none, rtAb := none, rtSegs := []
    rtSent := none, oda := [] }

def Fm.start : Fm :=
  { hold := none, tune := none, scan := none, waiting := [], i2s := false, rds := Rds.start, af := [], afBad := [], afTick := none
    afTry := none, ctMinutes := [], ctGross := 0, ctFine := 0, ctDisagree := false, ctTick := none }

def ErrRec.start : ErrRec := { code := 0, nested := false, time := 0, w2 := 0, w3 := 0 }

def Err.start : Err :=
  { aValid := false, bValid := false, recA := ErrRec.start, recB := ErrRec.start, overflow := 0, bad := [], told := []
    corrTick := none }

/-- The device right after the power-on reset has begun: the reset phase with POWER_ON asserted (Table 5-1 code 1,
bit 0 of `causes` and `seen`), the supplies good, nonvolatile state as shipped, every register at its reset value. How a program
comes to run from here is told in log 7. -/
def State.reset : State :=
  { pending := [], phase := .reset, nv := Nv.shipped, mem := [], ao := { Ao.start with causes := 1, seen := 1 }, pwr := Pwr.start
    boot := Boot.start, hb := Hb.start, cmd := Cmd.start, keep := Keep.start, vd := Vd.start, door := Door.start
    pb := Pb.start, rx := Rx.start, jug := Jug.start, car := Car.start, fm := Fm.start, err := Err.start, free := 0 }

end Sys2Proof.Machine
end

