-- ==== Sys2Proof/Machine/Operands.lean ====
section
/-! DEFINITION. Operands of the booth-routine instructions (Table 13-3, Table 13-4): registers by code, and the fields of
an instruction word. -/

namespace Sys2Proof.Machine

/-- A register that a 5-bit code names; codes 12 to 15 are reserved (R276). -/
def regOfCode (c : Nat) : Option JReg :=
  if c < 8 then some (.r (Fin.ofNat 8 c)) else if c < 12 then some (.a (Fin.ofNat 4 (c - 8)))
  else if c < 16 then none else some (.v (Fin.ofNat 16 (c - 16)))

/-- The 16 bits of a register. -/
def regGet (x : Run) : JReg → Half
  | .r i => x.r.get i
  | .a i => x.a.get i
  | .v i => x.v.get i

/-- Put 16 bits into a register. -/
def regSet (d : JReg) (h : Half) (x : Run) : Run :=
  match d with
  | .r i => { x with r := x.r.set i h }
  | .a i => { x with a := x.a.set i h }
  | .v i => { x with v := x.v.set i h }

/-- The number a register operand holds: unsigned in an a-register, signed elsewhere (Table 13-3). -/
def regInt (x : Run) : JReg → Int
  | .a i => (x.a.get i).toNat
  | q => (regGet x q).toInt

/-- An a-register, whose products R274 does not give. -/
def JReg.isA : JReg → Bool
  | .a _ => true
  | _ => false

/-- An accumulator by field X. -/
def accGet (x : Run) (second : Bool) : Int := if second then x.acc1 else x.acc0

def accPut (second : Bool) (v : Int) (x : Run) : Run := if second then { x with acc1 := v } else { x with acc0 := v }

/-- A field of an instruction word. -/
def wfield (w : Word) (lo n : Nat) : Nat := w.toNat / 2 ^ lo % 2 ^ n

def wD (w : Word) : Option JReg := regOfCode (wfield w 21 5)
def wA (w : Word) : Option JReg := regOfCode (wfield w 16 5)
def wB (w : Word) : Option JReg := regOfCode (wfield w 11 5)

/-- A register code that must name an a-register. -/
def aCode (c : Nat) : Option (Fin 4) := if 8 ≤ c ∧ c < 12 then some (Fin.ofNat 4 (c - 8)) else none
/-- A register code that must name an r-register. -/
def rCode (c : Nat) : Option (Fin 8) := if c < 8 then some (Fin.ofNat 8 c) else none
/-- A register code that must name an r-register or a lane. -/
def rvCode (c : Nat) : Option JReg := if c < 8 ∨ 16 ≤ c then regOfCode c else none

/-- A branch condition by code; 8 to 15 are invalid (R276). -/
def condOf (c : Nat) : Option JCond :=
  [JCond.always, .z, .nz, .n, .nn, .v, .nv, .s][c]?

end Sys2Proof.Machine
end

