-- ==== Sys2Proof/Machine/Flags.lean ====
section
/-! DEFINITION. Results and flags of the booth-routine instructions (R274). -/

namespace Sys2Proof.Machine

/-- Limit to 16 signed bits. -/
def sat16 (i : Int) : Int := max (-32768) (min 32767 i)

/-- Limit to 40 signed bits. -/
def sat40 (i : Int) : Int := max (-(2 ^ 39)) (min (2 ^ 39 - 1) i)

/-- An ALU result (R274 rule 1): saturating with S, Z and N in r and v; modulo 65 536 with Z alone in an a-register. -/
def aluWrite (d : JReg) (i : Int) (x : Run) : Run :=
  if JReg.isA d then
    let h : Half := BitVec.ofInt 16 i
    { regSet d h x with z := h == 0 }
  else
    let y := sat16 i
    { regSet d (BitVec.ofInt 16 y) x with z := y == 0, n := decide (y < 0), s := x.s || y != i }

/-- A bitwise ALU result: the 16 bits, as the class of the destination reads them. -/
def aluBits (d : JReg) (h : Half) (x : Run) : Run := aluWrite d (if JReg.isA d then (h.toNat : Int) else h.toInt) x

/-- An accumulator operation (R274 rule 2): saturation sets V and S, else V clears. -/
def accWrite (second : Bool) (i : Int) (x : Run) : Run :=
  let y := sat40 i
  { accPut second y x with vf := y != i, s := x.s || y != i }

/-- `a / 2^n` rounded to the nearest integer, halves to even (R274 rule 3). -/
def roundEven (a : Int) (n : Nat) : Int :=
  let d : Int := 2 ^ n
  let q := a / d
  let r := a % d
  if 2 * r < d then q else if d < 2 * r then q + 1 else if q % 2 = 0 then q else q + 1

/-- Bits below bit 39 that equal bit 39, counted down from bit 38; `m` is the accumulator, complemented when negative. -/
def signBits : Nat → Nat → Nat
  | 0, _ => 0
  | n + 1, m => if m < 2 ^ n then 1 + signBits n m else 0

/-- `e` of `EXP` and `NORM` (R274 rule 4). -/
def expOf (a : Int) : Nat := signBits 39 (if a < 0 then (-a - 1).toNat else a.toNat)

/-- A condition holds (Table 13-4, BR). -/
def condHolds (x : Run) : JCond → Bool
  | .always => true
  | .z => x.z
  | .nz => !x.z
  | .n => x.n
  | .nn => !x.n
  | .v => x.vf
  | .nv => !x.vf
  | .s => x.s

end Sys2Proof.Machine
end

