-- ==== Sys2Proof/Machine/Codes.lean ====
section
/-! DEFINITION. Code tables: event sources (Table 18-1), reply statuses (Table 7-3), reset causes (Table 5-1), key
types (Table 10-2) and the opcode rows of Table 7-2. -/

namespace Sys2Proof.Machine

/-- The event sources of Table 18-1 (R370), named without their prefix. -/
inductive Ev where
  | vcoreRaise | canaryLimit | battLow | battEnd | gateOverride | gateBlocked
  | bootDone | restFloat | restMismatch | slotFallback | trialFailed | imgReady | imgInvalid | floorRaised | floorSpent | dbgDenied | error | holdSafe | holdExit | eccCorrected | eccUncorr
  | regReject | boothPriv | ibrTimeout
  | pbusArb | pbusTimeout | pbusStuck | pbusBadreport
  | queueFull | cmdMalformed | boothDrained
  | walkFault | boothEcc
  | epochNew | rngFail | rngOk
  | sporeWritten | sporeSpent
  | revokedSeen | grantWithdrawn | revokeFull | latchFault | deny | grant
  | tamper | doorOpen | doorClosed | handle | doorForced | privacy
  | calFail | synUnlock | refLoss | refOk | dllUnlock | clk1Hold | coexDenied | blankLong
  | frdSat
  | rtnTrap
  | dcHdrFail | dcCrcFail | carAborted
  | carApplied | carOverrun | carDelivered | seqFrozen | revokeBehind | revokeCurrent | mastChange | scheduleLost
  | fmEnded | rdsSync | rdsLost | rdsDelivered | afSwitch | afReject | ctSample
  | timeUnsure | timeSure | timeJump | trimLearned | timeDisagree | logCheckpoint | logRecovered | logFull | logOverwrite | logSealed
deriving DecidableEq, Repr

/-- Group and index of a source (Table 18-1). -/
def Ev.place : Ev → Nat × Nat
  | .vcoreRaise => (0, 0)
  | .canaryLimit => (0, 1)
  | .battLow => (0, 2)
  | .battEnd => (0, 3)
  | .gateOverride => (0, 4)
  | .gateBlocked => (0, 5)
  | .bootDone => (1, 0)
  | .restFloat => (1, 1)
  | .restMismatch => (1, 2)
  | .slotFallback => (1, 3)
  | .trialFailed => (1, 4)
  | .imgReady => (1, 5)
  | .imgInvalid => (1, 6)
  | .floorRaised => (1, 7)
  | .floorSpent => (1, 8)
  | .dbgDenied => (1, 9)
  | .error => (1, 10)
  | .holdSafe => (1, 11)
  | .holdExit => (1, 12)
  | .eccCorrected => (1, 13)
  | .eccUncorr => (1, 14)
  | .regReject => (2, 0)
  | .boothPriv => (2, 1)
  | .ibrTimeout => (2, 2)
  | .pbusArb => (3, 0)
  | .pbusTimeout => (3, 1)
  | .pbusStuck => (3, 2)
  | .pbusBadreport => (3, 3)
  | .queueFull => (4, 0)
  | .cmdMalformed => (4, 1)
  | .boothDrained => (4, 2)
  | .walkFault => (5, 0)
  | .boothEcc => (5, 1)
  | .epochNew => (6, 0)
  | .rngFail => (6, 1)
  | .rngOk => (6, 2)
  | .sporeWritten => (7, 0)
  | .sporeSpent => (7, 1)
  | .revokedSeen => (8, 0)
  | .grantWithdrawn => (8, 1)
  | .revokeFull => (8, 2)
  | .latchFault => (8, 3)
  | .deny => (8, 4)
  | .grant => (8, 5)
  | .tamper => (9, 0)
  | .doorOpen => (9, 1)
  | .doorClosed => (9, 2)
  | .handle => (9, 3)
  | .doorForced => (9, 4)
  | .privacy => (9, 5)
  | .calFail => (10, 0)
  | .synUnlock => (10, 1)
  | .refLoss => (10, 2)
  | .refOk => (10, 3)
  | .dllUnlock => (10, 4)
  | .clk1Hold => (10, 5)
  | .coexDenied => (10, 6)
  | .blankLong => (10, 7)
  | .frdSat => (11, 0)
  | .rtnTrap => (12, 0)
  | .dcHdrFail => (13, 0)
  | .dcCrcFail => (13, 1)
  | .carAborted => (13, 2)
  | .carApplied => (14, 0)
  | .carOverrun => (14, 1)
  | .carDelivered => (14, 2)
  | .seqFrozen => (14, 3)
  | .revokeBehind => (14, 4)
  | .revokeCurrent => (14, 5)
  | .mastChange => (14, 6)
  | .scheduleLost => (14, 7)
  | .fmEnded => (15, 0)
  | .rdsSync => (15, 1)
  | .rdsLost => (15, 2)
  | .rdsDelivered => (15, 3)
  | .afSwitch => (15, 4)
  | .afReject => (15, 5)
  | .ctSample => (15, 6)
  | .timeUnsure => (16, 0)
  | .timeSure => (16, 1)
  | .timeJump => (16, 2)
  | .trimLearned => (16, 3)
  | .timeDisagree => (16, 4)
  | .logCheckpoint => (16, 5)
  | .logRecovered => (16, 6)
  | .logFull => (16, 7)
  | .logOverwrite => (16, 8)
  | .logSealed => (16, 9)

/-- Source number: group × 32 + index. -/
def Ev.source (e : Ev) : Nat := 32 * e.place.1 + e.place.2

/-- The bits of a group's pending and mask registers that Table 18-1 lists; the others read 0 (R370). -/
def evBits (g : Nat) : Word :=
  [0x3f, 0x7fff, 0x7, 0xf, 0x7, 0x3, 0x7, 0x3, 0x3f, 0x3f, 0xff, 0x1, 0x1, 0x7, 0xff, 0x7f, 0x3ff].getD g 0

/-- Status codes (Table 7-3). -/
def Status.code : Status → Byte
  | .ok => 0x00
  | .busy => 0x01
  | .cancelled => 0x02
  | .badOpcode => 0x03
  | .badLength => 0x04
  | .badParam => 0x05
  | .priv => 0x06
  | .notReady => 0x07
  | .gated => 0x08
  | .powerLow => 0x09
  | .holdSafe => 0x0A
  | .lifecycle => 0x0B
  | .noTag => 0x0C
  | .inUse => 0x0D
  | .notFound => 0x0E
  | .keyStale => 0x10
  | .keyEmpty => 0x11
  | .keyType => 0x12
  | .authFail => 0x13
  | .sporeSpent => 0x14
  | .rngFail => 0x15
  | .walkRange => 0x18
  | .walkDevice => 0x19
  | .walkEcc => 0x1A
  | .restFloat => 0x20
  | .slotBusy => 0x21
  | .carReject => 0x22
  | .routineTrap => 0x23
  | .pbusArb => 0x28
  | .pbusTimeout => 0x29
  | .pbusNack => 0x2A
  | .pbusDown => 0x2B

/-- Primary cause code (Table 5-1). -/
def Cause.code : Cause → Nat
  | .powerOn => 1 | .brownout => 2 | .vddioUv => 3 | .vnvmUv => 4 | .vcoreUv => 5 | .nrstPin => 6
  | .keepFault => 7 | .trialWdt => 8 | .update => 9 | .lifecycle => 10 | .devReset => 11

def causeList : List Cause :=
  [.powerOn, .brownout, .vddioUv, .vnvmUv, .vcoreUv, .nrstPin, .keepFault, .trialWdt, .update, .lifecycle, .devReset]

/-- Key type codes (Table 10-2). -/
def KeyType.code : KeyType → Byte
  | .empty => 0 | .aes128 => 1 | .aes256 => 2 | .wrap256 => 3 | .epoch256 => 4 | .sign25519 => 5 | .audit25519 => 6

/-- The type a `KEY_LOAD` or `KEY_DERIVE` may name (R196). -/
def loadableType (b : Byte) : Option KeyType :=
  if b = 1 then some .aes128 else if b = 2 then some .aes256 else if b = 3 then some .wrap256
  else if b = 5 then some .sign25519 else none

/-- Key length in bytes (Table 10-2). -/
def KeyType.bytes : KeyType → Nat
  | .empty => 0 | .aes128 => 16 | _ => 32

def LifeCycle.code : LifeCycle → Nat
  | .blank => 0 | .provisioned => 1 | .field => 2 | .retired => 3

def DbgState.code : DbgState → Nat
  | .open_ => 0 | .challenge => 1 | .unlocked => 2 | .closed => 3

def BoothMode.code : BoothMode → Nat
  | .disabled => 0 | .enabled => 1 | .draining => 2

def RtnState.code : RtnState → Nat
  | .none_ => 0 | .loaded => 1 | .running => 2 | .trapped => 3

def RestCode.code : RestCode → Nat
  | .low => 0 | .high => 1 | .float => 2 | .unsensed => 3

def RxMode.code : RxMode → Nat
  | .sleep => 0 | .standby => 1 | .datacast => 2 | .fm => 3 | .calibrating => 4

/-- Latch states 0 to 6 (Table 11-7, R230, R231). -/
def LatchState.code : LatchState → Nat
  | .idle => 0 | .opening => 1 | .dwell => 2 | .waiting => 3 | .closing => 4 | .held => 5 | .fault => 6

/-- One row of Table 7-2: opcode, whether only booth 0 may send it, its H mark, its payload lengths
(`lo` to `hi` in steps of `mult`). -/
structure OpRow where
  op : Byte
  ownerOnly : Bool
  hold : Bool
  lo : Nat
  hi : Nat
  mult : Nat
deriving DecidableEq, Repr

def op_nop : OpRow := { op := 0x00, ownerOnly := false, hold := true, lo := 0, hi := 0, mult := 1 }
def op_getInfo : OpRow := { op := 0x01, ownerOnly := false, hold := true, lo := 0, hi := 0, mult := 1 }
def op_devReset : OpRow := { op := 0x02, ownerOnly := true, hold := true, lo := 0, hi := 0, mult := 1 }
def op_keyInfo : OpRow := { op := 0x20, ownerOnly := false, hold := true, lo := 1, hi := 1, mult := 1 }
def op_keyLoad : OpRow := { op := 0x21, ownerOnly := false, hold := true, lo := 28, hi := 44, mult := 16 }
def op_keyErase : OpRow := { op := 0x22, ownerOnly := false, hold := true, lo := 1, hi := 1, mult := 1 }
def op_aesCrypt : OpRow := { op := 0x23, ownerOnly := false, hold := true, lo := 36, hi := 1012, mult := 16 }
def op_cmacGen : OpRow := { op := 0x24, ownerOnly := false, hold := true, lo := 4, hi := 1024, mult := 1 }
def op_sha256 : OpRow := { op := 0x25, ownerOnly := false, hold := true, lo := 0, hi := 1024, mult := 1 }
def op_edVerify : OpRow := { op := 0x26, ownerOnly := false, hold := true, lo := 96, hi := 1024, mult := 1 }
def op_edSign : OpRow := { op := 0x27, ownerOnly := false, hold := true, lo := 4, hi := 1024, mult := 1 }
def op_keyDerive : OpRow := { op := 0x28, ownerOnly := false, hold := true, lo := 4, hi := 68, mult := 1 }
def op_random : OpRow := { op := 0x29, ownerOnly := false, hold := true, lo := 2, hi := 2, mult := 1 }
def op_auditPub : OpRow := { op := 0x2A, ownerOnly := false, hold := true, lo := 0, hi := 0, mult := 1 }
def op_credSubmit : OpRow := { op := 0x30, ownerOnly := false, hold := false, lo := 32, hi := 32, mult := 1 }
def op_doorStatus : OpRow := { op := 0x31, ownerOnly := false, hold := true, lo := 0, hi := 0, mult := 1 }
def op_latchCmd : OpRow := { op := 0x32, ownerOnly := true, hold := false, lo := 4, hi := 4, mult := 1 }
def op_gpAssign : OpRow := { op := 0x33, ownerOnly := true, hold := false, lo := 4, hi := 4, mult := 1 }
def op_gpWrite : OpRow := { op := 0x34, ownerOnly := false, hold := false, lo := 2, hi := 2, mult := 1 }
def op_gpRead : OpRow := { op := 0x35, ownerOnly := false, hold := true, lo := 0, hi := 0, mult := 1 }
def op_pbusXfer : OpRow := { op := 0x36, ownerOnly := false, hold := false, lo := 4, hi := 259, mult := 1 }
def op_fmTune : OpRow := { op := 0x40, ownerOnly := false, hold := false, lo := 4, hi := 4, mult := 1 }
def op_fmScan : OpRow := { op := 0x41, ownerOnly := false, hold := false, lo := 6, hi := 6, mult := 1 }
def op_fmStop : OpRow := { op := 0x42, ownerOnly := false, hold := true, lo := 0, hi := 0, mult := 1 }
def op_rdsSubscribe : OpRow := { op := 0x43, ownerOnly := false, hold := false, lo := 8, hi := 8, mult := 1 }
def op_dcStatus : OpRow := { op := 0x50, ownerOnly := false, hold := true, lo := 0, hi := 0, mult := 1 }
def op_dcSubscribe : OpRow := { op := 0x51, ownerOnly := false, hold := false, lo := 2, hi := 2, mult := 1 }
def op_dcInject : OpRow := { op := 0x52, ownerOnly := true, hold := false, lo := 5, hi := 1024, mult := 1 }
def op_dcListen : OpRow := { op := 0x53, ownerOnly := true, hold := false, lo := 4, hi := 4, mult := 1 }
def op_dcCounters : OpRow := { op := 0x54, ownerOnly := false, hold := true, lo := 0, hi := 0, mult := 1 }
def op_dcStop : OpRow := { op := 0x55, ownerOnly := true, hold := true, lo := 0, hi := 0, mult := 1 }
def op_dcStart : OpRow := { op := 0x56, ownerOnly := true, hold := false, lo := 0, hi := 0, mult := 1 }
def op_timeGet : OpRow := { op := 0x60, ownerOnly := false, hold := true, lo := 0, hi := 0, mult := 1 }
def op_logInfo : OpRow := { op := 0x70, ownerOnly := false, hold := true, lo := 0, hi := 0, mult := 1 }
def op_logRead : OpRow := { op := 0x71, ownerOnly := false, hold := true, lo := 6, hi := 6, mult := 1 }
def op_logCheckpoint : OpRow := { op := 0x72, ownerOnly := false, hold := true, lo := 5, hi := 5, mult := 1 }
def op_logRelease : OpRow := { op := 0x73, ownerOnly := true, hold := true, lo := 5, hi := 5, mult := 1 }
def op_storeRead : OpRow := { op := 0x80, ownerOnly := false, hold := true, lo := 6, hi := 6, mult := 1 }
def op_storeWrite : OpRow := { op := 0x81, ownerOnly := false, hold := false, lo := 5, hi := 1024, mult := 1 }
def op_tableSet : OpRow := { op := 0x82, ownerOnly := true, hold := false, lo := 12, hi := 12, mult := 1 }
def op_boothStatus : OpRow := { op := 0x85, ownerOnly := false, hold := true, lo := 0, hi := 0, mult := 1 }
def op_rtnLoad : OpRow := { op := 0x90, ownerOnly := false, hold := false, lo := 6, hi := 1022, mult := 4 }
def op_rtnStart : OpRow := { op := 0x91, ownerOnly := false, hold := false, lo := 4, hi := 36, mult := 4 }
def op_rtnRead : OpRow := { op := 0x92, ownerOnly := false, hold := false, lo := 4, hi := 4, mult := 1 }
def op_rtnWrite : OpRow := { op := 0x93, ownerOnly := false, hold := false, lo := 3, hi := 1024, mult := 1 }
def op_sporeRead : OpRow := { op := 0xA0, ownerOnly := false, hold := true, lo := 1, hi := 1, mult := 1 }
def op_sporeWrite : OpRow := { op := 0xA1, ownerOnly := true, hold := true, lo := 5, hi := 36, mult := 1 }
def op_sporeStep : OpRow := { op := 0xA2, ownerOnly := true, hold := true, lo := 1, hi := 1, mult := 1 }
def op_imgWrite : OpRow := { op := 0xB0, ownerOnly := true, hold := false, lo := 8, hi := 1020, mult := 4 }
def op_imgActivate : OpRow := { op := 0xB1, ownerOnly := true, hold := false, lo := 4, hi := 4, mult := 1 }
def op_imgConfirm : OpRow := { op := 0xB2, ownerOnly := true, hold := false, lo := 0, hi := 0, mult := 1 }
def op_imgStatus : OpRow := { op := 0xB3, ownerOnly := false, hold := true, lo := 0, hi := 0, mult := 1 }
def op_lcProvision : OpRow := { op := 0xC0, ownerOnly := true, hold := false, lo := 0, hi := 0, mult := 1 }
def op_lcField : OpRow := { op := 0xC1, ownerOnly := true, hold := false, lo := 64, hi := 64, mult := 1 }
def op_lcRetire : OpRow := { op := 0xC2, ownerOnly := true, hold := true, lo := 64, hi := 64, mult := 1 }
def op_boothEnable : OpRow := { op := 0xC4, ownerOnly := true, hold := false, lo := 2, hi := 2, mult := 1 }
def op_boothDisable : OpRow := { op := 0xC5, ownerOnly := true, hold := true, lo := 1, hi := 1, mult := 1 }
def op_cancel : OpRow := { op := 0xF0, ownerOnly := false, hold := true, lo := 1, hi := 1, mult := 1 }

/-- Table 7-2. -/
def opTable : List OpRow :=
  [op_nop, op_getInfo, op_devReset, op_keyInfo, op_keyLoad, op_keyErase,
   op_aesCrypt, op_cmacGen, op_sha256, op_edVerify, op_edSign, op_keyDerive,
   op_random, op_auditPub, op_credSubmit, op_doorStatus, op_latchCmd, op_gpAssign,
   op_gpWrite, op_gpRead, op_pbusXfer, op_fmTune, op_fmScan, op_fmStop,
   op_rdsSubscribe, op_dcStatus, op_dcSubscribe, op_dcInject, op_dcListen, op_dcCounters,
   op_dcStop, op_dcStart, op_timeGet, op_logInfo, op_logRead, op_logCheckpoint,
   op_logRelease, op_storeRead, op_storeWrite, op_tableSet, op_boothStatus, op_rtnLoad,
   op_rtnStart, op_rtnRead, op_rtnWrite, op_sporeRead, op_sporeWrite, op_sporeStep,
   op_imgWrite, op_imgActivate, op_imgConfirm, op_imgStatus, op_lcProvision, op_lcField,
   op_lcRetire, op_boothEnable, op_boothDisable, op_cancel]

/-- The payload length is one the row allows (R142, step 4). -/
def OpRow.lenOk (r : OpRow) (n : Nat) : Bool := decide (r.lo ≤ n ∧ n ≤ r.hi ∧ (n - r.lo) % r.mult = 0)

/-- Spore cells by number (Table 10-4). -/
inductive CellKind where
  | reserved
  | step (steps : Nat)
  | budgeted (len budget : Nat)
deriving DecidableEq, Repr

def cellKind (c : Nat) : CellKind :=
  if c = 0 then .step 3 else if c = 1 then .budgeted 4 4 else if c = 2 then .budgeted 32 8
  else if c = 3 then .budgeted 32 32 else if c = 4 ∨ c = 5 then .budgeted 2 16 else if c = 6 then .budgeted 4 64
  else if c = 7 then .budgeted 2 8 else if c = 8 ∨ c = 9 ∨ c = 10 then .budgeted 1 8
  else if 16 ≤ c ∧ c ≤ 31 then .step 255 else if 32 ≤ c ∧ c ≤ 95 then .budgeted 32 16 else .reserved

end Sys2Proof.Machine
end

