-- ==== Sys2Proof/Machine/Bits.lean ====
section
/-! DEFINITION. Byte order (R5), bit fields, and the cyclic redundancy checks of packets, reports, frames and headers
(R139, R134, R298, R301). -/

namespace Sys2Proof.Machine

/-- `n` bytes of `v`, least significant first (R5). -/
def leBytes : Nat → Nat → Bytes
  | 0, _ => []
  | n + 1, v => BitVec.ofNat 8 v :: leBytes n (v / 256)

/-- The number that bytes in little-endian order spell (R5). -/
def ofLe : Bytes → Nat
  | [] => 0
  | b :: bs => b.toNat + 256 * ofLe bs

/-- `n` bytes of `v`, most significant first. -/
def beBytes (n v : Nat) : Bytes := (leBytes n v).reverse

/-- The number that bytes in big-endian order spell. -/
def ofBe (bs : Bytes) : Nat := ofLe bs.reverse

/-- Bytes `off` to `off + n - 1`. -/
def sub (bs : Bytes) (off n : Nat) : Bytes := (bs.drop off).take n

/-- The little-endian field of `n` bytes at `off`. -/
def leField (bs : Bytes) (off n : Nat) : Nat := ofLe (sub bs off n)

/-- Byte `i`, 0 past the end. -/
def byteAt (bs : Bytes) (i : Nat) : Byte := bs.getD i 0

/-- `n` bytes of zero. -/
def zeros (n : Nat) : Bytes := List.replicate n 0

/-- `bs` cut or filled with zeros to `n` bytes. -/
def padTo (n : Nat) (bs : Bytes) : Bytes := bs.take n ++ zeros (n - bs.length)

/-- A field of a register word: bits `[lo + n - 1 : lo]` as a number. -/
def bits (w : Word) (lo n : Nat) : Nat := w.toNat / 2 ^ lo % 2 ^ n

/-- A word with value `v` at bit `lo`. -/
def at_ (lo v : Nat) : Word := BitVec.ofNat 32 v <<< lo

/-- 1 for true. -/
def bit (b : Bool) : Nat := if b then 1 else 0

/-- The signed number an 8-bit two's complement byte spells. -/
def signedByte (b : Byte) : Int := b.toInt

/-- A signed number as a byte, saturating. -/
def byteOfInt (i : Int) : Byte := BitVec.ofInt 8 (max (-128) (min 127 i))

/-- Number of 1 bits in the low `n` bits of `v`. -/
def popCount : Nat → Nat → Nat
  | 0, _ => 0
  | n + 1, v => v % 2 + popCount n (v / 2)

/-- Saturating count. -/
def satInc (limit v : Nat) : Nat := if v < limit then v + 1 else limit

/-- One byte through an MSB-first CRC of `w` bits with polynomial `poly`. -/
def crcStep (w : Nat) (poly : BitVec w) : Nat → BitVec w → BitVec w
  | 0, c => c
  | n + 1, c => crcStep w poly n (if c.msb then (c <<< 1) ^^^ poly else c <<< 1)

def crcByte (w : Nat) (poly c : BitVec w) (b : Byte) : BitVec w :=
  crcStep w poly 8 (c ^^^ (b.zeroExtend w <<< (w - 8)))

/-- CRC-16: polynomial 0x1021, initial value 0xFFFF, no reflection, no final inversion (R139, R134). -/
def crc16 (bs : Bytes) : Half := bs.foldl (crcByte 16 0x1021) 0xFFFF

/-- One byte through the reflected CRC-32. -/
def crc32Step : Nat → Word → Word
  | 0, c => c
  | n + 1, c => crc32Step n (if c.getLsbD 0 then (c >>> 1) ^^^ 0xEDB88320 else c >>> 1)

/-- CRC-32 of IEEE 802.3 (Table 0-1). -/
def crc32 (bs : Bytes) : Word :=
  ~~~ bs.foldl (fun c b => crc32Step 8 (c ^^^ b.zeroExtend 32)) 0xFFFFFFFF

end Sys2Proof.Machine
end

