-- ==== Sys2Proof/Machine/Mem.lean ====
section
/-! DEFINITION. The sparse byte memories. An unlisted address reads as 0 (log 3); addresses rise strictly and no entry
holds 0, so equal memories are equal lists. -/

namespace Sys2Proof.Machine

/-- The canonical form: strictly rising addresses above `lo`, no zero byte. -/
def memWfFrom : Nat → Memory → Bool
  | _, [] => true
  | lo, (a, b) :: m => decide (lo ≤ a) && (b != 0) && memWfFrom (a + 1) m

/-- The canonical form of a memory (log 3). -/
def Memory.wf (m : Memory) : Bool := memWfFrom 0 m

/-- The byte at an address. -/
def memGet : Memory → Nat → Byte
  | [], _ => 0
  | (k, v) :: m, a => if k = a then v else if a < k then 0 else memGet m a

/-- Write one byte, keeping the canonical form. -/
def memSet : Memory → Nat → Byte → Memory
  | [], a, b => if b = 0 then [] else [(a, b)]
  | (k, v) :: m, a, b =>
    if a < k then (if b = 0 then (k, v) :: m else (a, b) :: (k, v) :: m)
    else if a = k then (if b = 0 then m else (a, b) :: m)
    else (k, v) :: memSet m a b

/-- Read `n` bytes in ascending order. -/
def memRead (m : Memory) (a : Nat) : Nat → Bytes
  | 0 => []
  | n + 1 => memGet m a :: memRead m (a + 1) n

/-- Write bytes in ascending order (R190). -/
def memWrite : Memory → Nat → Bytes → Memory
  | m, _, [] => m
  | m, a, b :: bs => memWrite (memSet m a b) (a + 1) bs

/-- Zero the addresses from `lo` up to, not including, `hi`. -/
def memZero (m : Memory) (lo hi : Nat) : Memory := m.filter fun c => !(decide (lo ≤ c.1) && decide (c.1 < hi))

/-- Bases and sizes of Table 9-2, Table 11-10 and R178. -/
def sramBoothBase : Nat := 0x00040000
def tableBase : Nat := 0x00070000
def poolBase : Nat := 0x00070400
def tableEnd : Nat := 0x00080000
def slotABase : Nat := 0x40500000
def slotBytes : Nat := 786432
def rightsBase : Nat := 0x40680000
def recentBase : Nat := 0x406C0000
def schedBase : Nat := 0x406C8000
def storeBase : Nat := 0x40700000
def storeEnd : Nat := 0x407F0000

/-- Base of an image slot in the region of Table 9-2: slot A first (log 19). -/
def slotBase : Slot → Nat
  | .a => slotABase
  | .b => slotABase + slotBytes

end Sys2Proof.Machine
end

