-- ==== Sys2Proof/Machine/Ops.lean ====
section
/-! DEFINITION. The operations every command shares: group updates, events (R165, R371), spore cells (R205, R207),
time (R350 to R355), replies and the acceptance of commands (R35 to R38, R141 to R143), and the host-bus front
(R106 to R118). -/

namespace Sys2Proof.Machine

/-! ### Group updates -/

def State.onNv (s : State) (f : Nv → Nv) : State := { s with nv := f s.nv }
def State.onAo (s : State) (f : Ao → Ao) : State := { s with ao := f s.ao }
def State.onPwr (s : State) (f : Pwr → Pwr) : State := { s with pwr := f s.pwr }
def State.onBoot (s : State) (f : Boot → Boot) : State := { s with boot := f s.boot }
def State.onHb (s : State) (f : Hb → Hb) : State := { s with hb := f s.hb }
def State.onCmd (s : State) (f : Cmd → Cmd) : State := { s with cmd := f s.cmd }
def State.onKeep (s : State) (f : Keep → Keep) : State := { s with keep := f s.keep }
def State.onVd (s : State) (f : Vd → Vd) : State := { s with vd := f s.vd }
def State.onDoor (s : State) (f : Door → Door) : State := { s with door := f s.door }
def State.onPb (s : State) (f : Pb → Pb) : State := { s with pb := f s.pb }
def State.onRx (s : State) (f : Rx → Rx) : State := { s with rx := f s.rx }
def State.onJug (s : State) (f : Jug → Jug) : State := { s with jug := f s.jug }
def State.onCar (s : State) (f : Car → Car) : State := { s with car := f s.car }
def State.onFm (s : State) (f : Fm → Fm) : State := { s with fm := f s.fm }
def State.onErr (s : State) (f : Err → Err) : State := { s with err := f s.err }

/-- Advance the free-value counter (log 4). -/
def State.draw (s : State) : State := { s with free := s.free + 1 }

/-- Booth `b`. -/
def State.booth (s : State) (b : Booth) : BoothSt := s.cmd.booths.get b

/-- Update booth `b`. -/
def State.onBooth (s : State) (b : Booth) (f : BoothSt → BoothSt) : State :=
  s.onCmd fun c => { c with booths := c.booths.set b (f (c.booths.get b)) }

/-- All booth numbers. -/
def allBooths : List Booth := [0, 1, 2, 3, 4, 5, 6, 7]

/-! ### Events -/

/-- The `EVR_SIG` nibble of a booth (Table 8-6). -/
def sigOf (s : State) (b : Booth) : Nat := bits s.cmd.sig (4 * b.val) 3

/-- Signalling bits of a booth in group `g` (R161). -/
def signalling (x : BoothSt) (g : Fin 17) : Word := x.pend.get g &&& x.mask.get g

/-- Whether any bit of the booth is signalling (R161). -/
def anySignal (x : BoothSt) : Bool := (List.zipWith (· &&& ·) x.pend.toList x.mask.toList).any (· != 0)

/-- In-band requests are on for the booth (R375). -/
def ibrOn (s : State) (b : Booth) : Bool := s.hb.cfg.getLsbD 8 && decide (sigOf s b / 4 % 2 = 1)

/-- The booth has something to announce in-band (R375). -/
def ibrWants (s : State) (b : Booth) : Bool :=
  ibrOn s b && (anySignal (s.booth b) || !(s.booth b).replies.isEmpty)

/-- A new reply or signalling event makes the booth request (R124, R375; log 21). -/
def ibrArise (b : Booth) (s : State) : State :=
  if ibrOn s b then s.onHb fun h => { h with ibrReq := h.ibrReq ||| (1#8 <<< b.val) } else s

/-- Set the pending bit of a source for one booth, if the booth is enabled (R165, R371). -/
def deliver (e : Ev) (b : Booth) (s : State) : State :=
  if (s.booth b).mode = .enabled then
    let g : Fin 17 := Fin.ofNat 17 e.place.1
    let m : Word := 1#32 <<< e.place.2
    let s' := s.onBooth b fun x => { x with pend := x.pend.set g (x.pend.get g ||| m) }
    if (s.booth b).mask.get g &&& m ≠ 0 then ibrArise b s' else s'
  else s

/-- Whether a device-wide event of group `g` is routed to booth `b` (R165). -/
def routed (s : State) (g : Fin 17) (b : Booth) : Bool := b.val = 0 || (s.cmd.route.get g).getLsbD b.val

def deliverAll (e : Ev) : List Booth → State → State
  | [], s => s
  | b :: bs, s =>
    deliverAll e bs (if routed s (Fin.ofNat 17 e.place.1) b then deliver e b s else s)

/-- Raise a device-wide event (R165, R371). No event is raised in the loader state (R93). -/
def raise (e : Ev) (s : State) : State := if s.boot.loader then s else deliverAll e allBooths s

/-- Raise a booth-addressed event (R165). -/
def raiseTo (e : Ev) (b : Booth) (s : State) : State := if s.boot.loader then s else deliver e b s

/-- Raise an event for its booth and booth 0 (the sources marked b+0 in Table 18-1). -/
def raiseToBoth (e : Ev) (b : Booth) (s : State) : State := raiseTo e 0 (if b = 0 then s else raiseTo e b s)

/-- Raise an event when a condition holds. -/
def raiseIf (c : Bool) (e : Ev) (s : State) : State := if c then raise e s else s

/-- The device's Keep and Ringmaster run. -/
def alive (s : State) : Bool := s.phase == .running || s.phase == .holdSafe

/-! ### Spore cells -/

/-- The record of a written cell. -/
def sporeFind (s : State) (c : Nat) : Option SporeCell := s.nv.spore.find? (·.cell = c)

/-- The value of a cell; an unwritten cell reads zeros (R205). -/
def cellValue (s : State) (c : Nat) : Bytes :=
  match sporeFind s c, cellKind c with
  | some r, _ => r.value
  | none, .budgeted len _ => zeros len
  | none, .step _ => [0]
  | none, .reserved => []

/-- The value of a cell as a number (R5). -/
def cellNat (s : State) (c : Nat) : Nat := ofLe (cellValue s c)

/-- A cell is unwritten while its budget is untouched (R205). -/
def cellWritten (s : State) (c : Nat) : Bool := (sporeFind s c).isSome

/-- Budget left of a cell (R208). -/
def cellLeft (s : State) (c : Nat) : Nat :=
  match sporeFind s c, cellKind c with
  | some r, _ => r.left
  | none, .budgeted _ b => b
  | none, .step n => n
  | none, .reserved => 0

/-- Put a record for a cell. -/
def sporePut (r : SporeCell) (s : State) : State :=
  s.onNv fun n => { n with spore := r :: n.spore.filter (·.cell ≠ r.cell) }

/-- The life-cycle state that `SP_LIFECYCLE` holds (R101). -/
def lifeCycle (s : State) : LifeCycle :=
  match cellNat s 0 with
  | 0 => .blank | 1 => .provisioned | 2 => .field | _ => .retired

/-- The present version floor (R100). -/
def versionFloor (s : State) : Nat := cellNat s 6

/-- This device's property, lock group and door (Table 10-4). -/
def propertyId (s : State) : Nat := cellNat s 1
def lockGroup (s : State) : Nat := cellNat s 4
def doorId (s : State) : Nat := cellNat s 5

/-! ### Time -/

/-- Fine units of device time in a second (R350, log 1). -/
def fineSec : Nat := 24 * 32768 * 1000000000

/-- A time in fine units, down to whole periods of 1/32 768 s: the fraction with which device time is held (R350). -/
def wholeTicks (t : Nat) : Nat := t / 24000000000 * 24000000000

/-- Units of U in a millisecond (R352, log 1). -/
def uUnit : Nat := 144 * 32768 * 1000000

/-- U saturates at 0xFFFF_FFFE ms (R352). -/
def uMax : Nat := 0xFFFFFFFE * uUnit

/-- RTC periods in `n` milliseconds, rounded up. -/
def ticksMs (n : Nat) : Nat := (n * 32768 + 999) / 1000

/-- Device time is known (R351). -/
def timeKnown (s : State) : Bool := s.ao.known && lifeCycle s != .blank

/-- Device time in whole seconds; 0 while unknown (R351). -/
def devSec (s : State) : Nat := if timeKnown s then s.ao.fine / fineSec else 0

/-- Milliseconds of the present second, from the fraction held (R350). -/
def devMs (s : State) : Nat := if timeKnown s then wholeTicks s.ao.fine % fineSec * 1000 / fineSec else 0

def sumInt (l : List Int) : Int := l.foldl (· + ·) 0

/-- A bin is learned once it holds 3 or more estimates (R355). -/
def learned (s : State) (b : Fin 11) : Bool := 3 ≤ (s.nv.trim.get b).length

/-- Trim of a learned bin in 1/24 ppb: the mean of its estimates (R355). -/
def learnedTrim (s : State) (b : Fin 11) : Int :=
  24 * sumInt (s.nv.trim.get b) / ((s.nv.trim.get b).length : Int)

/-- The learned bins at distance `d` of bin `b`. -/
def learnedAt (s : State) (b : Fin 11) (d : Nat) : List (Fin 11) :=
  (List.finRange 11).filter fun k => learned s k && decide (k.val = b.val + d ∨ k.val + d = b.val)

/-- Trim from the learned bins at distance `d` or more (R355): the nearest, or the mean of two equally near. -/
def nearestTrim (s : State) (b : Fin 11) : Nat → Nat → Int
  | 0, _ => 0
  | n + 1, d =>
    match learnedAt s b d with
    | [] => nearestTrim s b n (d + 1)
    | [k] => learnedTrim s k
    | k :: j :: _ => (learnedTrim s k + learnedTrim s j) / 2

/-- The trim of a bin in 1/24 ppb (R355); none is applied on the RC source (R396). -/
def trim24 (s : State) (b : Fin 11) : Int := if s.ao.rcSource then 0 else nearestTrim s b 11 0

/-- The rate r of a bin in 1/144 ppb (R355, R396). -/
def rate144 (s : State) (b : Fin 11) : Nat :=
  if s.ao.rcSource then 144 * 30000000
  else if learned s b then
    let es := s.nv.trim.get b
    let n : Int := es.length
    let dev := sumInt (es.map fun e => ((n * e - sumInt es).natAbs : Int))
    144 * 2000 + (288 * dev / (n * n)).toNat
  else 144 * 200000

/-- U now, growth since the last pass included, in units of `uUnit`, saturating (R352, R353); none while unknown. -/
def uNow (s : State) : Option Nat :=
  if timeKnown s then s.ao.u.map fun u => min uMax (u + rate144 s s.ao.bin * (s.ao.rtc - s.ao.passTick)) else none

/-- U in milliseconds as read: rounded up, saturating, 0xFFFFFFFF while unknown (R352, R358). -/
def uMs (s : State) : Nat :=
  match uNow s with
  | none => 0xFFFFFFFF
  | some u => (u + uUnit - 1) / uUnit

/-- U exceeds 600 000 ms, or time is unknown (R352, R353). -/
def timeUnsure (s : State) : Bool :=
  match uNow s with
  | none => true
  | some u => 600000 * uUnit < u

/-- Smallest c with U ≤ 2^c ms (Table 17-2). -/
def uncFrom (u : Nat) : Nat → Nat → Byte
  | 0, _ => 0xFE
  | n + 1, c => if u ≤ 2 ^ c * uUnit then BitVec.ofNat 8 c else uncFrom u n (c + 1)

/-- The `UNC` byte of a log entry (Table 17-2). -/
def uncByte (s : State) : Byte :=
  match uNow s with
  | none => 0xFF
  | some u => uncFrom u 32 0

/-! ### Door reading used everywhere -/

/-- `DOOR_REST.OK`: LATCH_A, LATCH_B and DRV_EN are all LOW or HIGH (Table 3-5). -/
def restOk (s : State) : Bool :=
  let ok (c : RestCode) : Bool := c == .low || c == .high
  ok (s.door.rest.get 0) && ok (s.door.rest.get 1) && ok (s.door.rest.get 2)

/-! ### Replies and acceptance -/

/-- Commands of a booth in flight. -/
def inFlight (s : State) (b : Booth) : Nat := (s.cmd.svc.filter (·.booth = b)).length

/-- Replies of a booth waiting to be read, the extra slot left out (R143). -/
def waitingReplies (s : State) (b : Booth) : Nat := ((s.booth b).replies.filter (!·.refusal)).length

/-- The count of R143. -/
def depthCount (s : State) (b : Booth) : Nat := inFlight s b + waitingReplies s b

/-- A tag is outstanding for a booth (R149). -/
def tagOut (s : State) (b : Booth) (t : Byte) : Bool :=
  s.cmd.svc.any (fun x => x.booth = b ∧ x.tag = t) || (s.booth b).replies.any (fun r => !r.refusal && r.tag = t)

/-- Place a reply in a booth's queue (R150). -/
def pushReply (b : Booth) (r : Reply) (s : State) : State :=
  ibrArise b (s.onBooth b fun x => { x with replies := x.replies ++ [r] })

/-- Drop the service-table entry of a booth's tag. -/
def dropSvc (b : Booth) (t : Byte) (s : State) : State :=
  s.onCmd fun c => { c with svc := c.svc.filter fun x => !(x.booth = b ∧ x.tag = t) }

/-- Answer a command in flight: its reply is placed and it leaves the service table (Table 2-3). -/
def replyTo (b : Booth) (t : Byte) (st : Status) (payload : Bytes) (s : State) : State :=
  pushReply b { tag := t, status := st, payload := payload, refusal := false } (dropSvc b t s)

/-- Answer the command of a packet. -/
def answer (p : Packet) (st : Status) (payload : Bytes) (s : State) : State := replyTo p.src.booth p.tag st payload s

/-- Answer `ST_OK` without payload. -/
def done (p : Packet) (s : State) : State := answer p .ok [] s

/-- Last transfer acknowledged, or not (log 5). -/
def setAck (a : Bool) (s : State) : State := s.onHb fun h => { h with ack := a }

/-- Bytes sent to the reader of a bus (log 5). -/
def send (bs : Bytes) (s : State) : State := s.onHb fun h => { h with out := bs, ack := true }

/-- A malformed packet (R141). -/
def malformed (b : Booth) (cause : Byte) (s : State) : State :=
  raiseTo .cmdMalformed b
    (s.onBooth b fun x => { x with malCount := satInc 65535 x.malCount, malCause := cause })

/-- The refusal of R36: `ST_BUSY` with a cause byte in the extra slot, and EV_QUEUE_FULL. -/
def refuseBusy (b : Booth) (t : Byte) (cause : Byte) (s : State) : State :=
  raiseTo .queueFull b (pushReply b { tag := t, status := .busy, payload := [cause], refusal := true } s)

/-- The `ST_BUSY` slot of a booth holds an unread reply (R37). -/
def refusalWaiting (s : State) (b : Booth) : Bool := (s.booth b).replies.any (·.refusal)

/-- The service table has no room for the booth (R35). -/
def tableFull (s : State) (b : Booth) : Bool :=
  if b = 0 then decide (48 ≤ s.cmd.svc.length) else decide (40 ≤ (s.cmd.svc.filter (·.booth ≠ 0)).length)

/-! ### The host-bus front -/

/-- Addressing mode of `HB_ADDR_CFG` (Table 6-2). -/
def addrMode (s : State) : Nat := bits s.hb.addrCfg 0 2

/-- The booth has an address in the present mode (Table 6-1). -/
def hasAddress (s : State) (b : Booth) : Bool :=
  addrMode s != 1 || (BitVec.ofNat 3 b.val &&& ~~~ BitVec.ofNat 3 (bits s.hb.addrCfg 8 3)) == 0

/-- The debug port gives access (R104). -/
def dbgOpen (s : State) : Bool :=
  (s.boot.dbg == .open_ || s.boot.dbg == .unlocked) && (s.phase == .running || s.phase == .holdSafe || s.boot.loader)

/-- The device answers the sender's address, with a write or a read bit (R45, R104, R110, R152, Table 3-6). -/
def busAnswers (s : State) (src : Src) (write : Bool) : Bool :=
  match src.path with
  | .debug => dbgOpen s
  | .host =>
    (s.phase == .running || (s.phase == .holdSafe && s.boot.ready && src.booth == 0)) && hasAddress s src.booth
      && ((s.booth src.booth).mode == .enabled || ((s.booth src.booth).mode == .draining && !write))

/-- A transfer of `n` bytes that the sender's path can carry: a debug transfer has 1 to 255 (Table 5-5). -/
def busFits (src : Src) (n : Nat) : Bool := src.path == .host || decide (1 ≤ n ∧ n ≤ 255)

/-! ### Opening a gate -/

/-- The canary block of a gate bit (Tables 2-1 and 4-7); a block without canaries has no floor (log 22). -/
def canaryOf (i : Nat) : Option (Fin 11) :=
  if i = 0 then some 2 else if i = 1 then some 5 else if i = 4 then some 4 else if i = 5 then some 8 else none

/-- Pre-raise level of a gated block (R28). -/
def preLevel (s : State) (i : Nat) : Nat :=
  match canaryOf i with
  | none => 0
  | some c => match s.pwr.lastFloor.get c with | none => 35 | some l => min 35 (l + 2)

/-- Blocks that a request holds off now: requested, no lease pending, not overridden (R74, R77, R78). -/
def heldOff (s : State) : BitVec 9 :=
  s.pwr.gateReq &&& ~~~ s.pwr.gatePend &&& ~~~ (s.pwr.override_.zeroExtend 9)

/-- A block of Table 4-7 is released: its gate is open (R28, R74). -/
def gateOpen (s : State) (i : Nat) : Bool := !s.pwr.gateStat.getLsbD i

/-- Open one gate: at once, or after the pre-raise of R28; in FIXED mode the raise is reported (R31). -/
def openGate (i : Nat) (s : State) : State :=
  if !s.pwr.gateStat.getLsbD i || s.pwr.releasing.getLsbD i then s
  else if preLevel s i ≤ s.pwr.level then s.onPwr fun p => { p with gateStat := p.gateStat &&& ~~~ (1#9 <<< i) }
  else
    raiseIf (decide (bits s.pwr.trackCtrl 0 2 = 1)) .vcoreRaise
      (s.onPwr fun p => { p with
        releasing := p.releasing ||| (1#9 <<< i), raising := true, preTarget := max p.preTarget (preLevel s i) })

/-- Wake from sleep (R69, R117, R209): an idle VIN reading is due, and a DRBG that has been used reseeds. A PBUS engine that
was gated by 20 ms of sleep stays gated until CRED_WAKE or a transfer asks for it (log 29). -/
def wake (s : State) : State :=
  if s.hb.asleep then
    let s := s.onHb fun h => { h with asleep := false }
    let s := s.onPwr fun p => { p with wakeDue := true }
    s.onKeep fun k => if k.drbgUsed then { k with drbgSeeds := k.drbgSeeds + 1, drbgReqs := 0, drbgUsed := false } else k
  else s

/-- An address of the device on the host bus ends the quiet time of R124; the debug port addresses nothing there. -/
def quietAfter (src : Src) (s : State) : Option Nat := if src.path = .host then none else s.hb.ibrQuiet

/-- A transaction begins at a sender's address: whether it is acknowledged, and the state after the wake it may cause
(R117, R118). -/
def busFront (src : Src) (write : Bool) (s : State) : State × Bool :=
  let s0 := s.onHb fun h => { h with out := [], ack := false }
  if busAnswers s src write then
    let s1 := s0.onHb fun h => { h with ibrQuiet := quietAfter src s }
    if s.hb.asleep && s.hb.cfg.getLsbD 4 && src.path == .host then
      ((wake s1).onHb fun h => { h with awakeTill := s.ao.rtc + ticksMs 10 }, false)
    else (setAck true (wake s1), true)
  else (s0, false)

/-- A write sets the selection (R111); the debug port names its port in every transfer. -/
def setSel (src : Src) (port : Port) (s : State) : State :=
  match src.path with
  | .debug => s
  | .host =>
    if addrMode s = 2 then s.onHb fun h => { h with singleBooth := src.booth, singleSel := port }
    else s.onHb fun h => { h with sel := h.sel.set src.booth port }

/-- What a command needs of the blocks (R142 step 5): the Juggler released, gates not held off by request, and
whether it is refused under BATT_END. -/
structure Needs where
  juggler : Bool
  gates : BitVec 9
  power : Bool
deriving DecidableEq, Repr

def Needs.none : Needs := { juggler := false, gates := 0, power := false }

/-- Opcodes the loader state accepts (R93). -/
def loaderOps : List Byte := [0x00, 0x01, 0x02, 0xB0, 0xB3]

/-- Steps 2 to 5 of R142; in the loader state, R93. -/
def precheck (r : OpRow) (n : Needs) (p : Packet) (s : State) : Option Status :=
  if s.boot.loader && !loaderOps.contains r.op then some .notReady
  else if r.ownerOnly && p.src.booth != 0 then some .priv
  else if s.phase == .holdSafe && !r.hold then some .holdSafe
  else if !r.lenOk p.payload.length then some .badLength
  else if n.juggler && !s.jug.released then some .notReady
  else if n.gates &&& heldOff s != 0 then some .gated
  else if n.power && s.pwr.battEnd then some .powerLow
  else none

/-- A packet with good framing arrives (R36, R37, R141 case 4): `second` says that it would start a second routine of its
booth, which takes no service-table entry and raises no event (R38), its `ST_BUSY` standing in the extra slot of R36
(log 48); a packet that its path cannot carry does not arrive (Table 5-5); `k` is what the accepted command does. -/
def takePacket (second : State → Bool) (op : Byte) (p : Packet) (k : State → State) (s : State) : State :=
  let f := busFront p.src true s
  if !f.2 || !busFits p.src (6 + p.payload.length) then f.1
  else
    let s := setSel p.src .command f.1
    let b := p.src.booth
    if refusalWaiting s b then setAck false s
    else if tagOut s b p.tag then setAck false (malformed b 0x04 s)
    else if (s.booth b).depth ≤ depthCount s b then refuseBusy b p.tag 0x01 s
    else if tableFull s b then refuseBusy b p.tag 0x02 s
    else if second s then pushReply b { tag := p.tag, status := .busy, payload := [0x03], refusal := true } s
    else k (s.onCmd fun c => { c with svc := c.svc ++ [{ booth := b, tag := p.tag, opcode := op }] })

/-- A packet of any other opcode. -/
def withPacket (op : Byte) (p : Packet) (k : State → State) (s : State) : State := takePacket (fun _ => false) op p k s

/-- A command packet: acceptance, the checks of R142 in their order, then the command's own `body`. -/
def command (r : OpRow) (n : State → Needs) (p : Packet) (body : State → State) (s : State) : State :=
  withPacket r.op p (fun s =>
    match precheck r (n s) p s with
    | some st => answer p st [] s
    | none => body s) s

/-- A command that needs no block. -/
def simpleCommand (r : OpRow) (p : Packet) (body : State → State) (s : State) : State :=
  command r (fun _ => Needs.none) p body s

end Sys2Proof.Machine
end

