-- ==== Sys2Proof/Machine/Fronds.lean ====
section
/-! DEFINITION. The frond chain (R258 to R269): the seven half-band decimators on the datacast and FM paths, the audio
passes, rounding and saturation, the delay lines at a start, the detectors, and the run of samples through them. The
samples themselves and the unpublished coefficients are free values (log 43). -/

namespace Sys2Proof.Machine

/-! ### Responses -/

/-- Taps of frond `k` (0 to 6) on a path (Table 13-1). -/
def frondTaps (p : ChainPath) (k : Nat) : Nat :=
  match p with
  | .datacast => [11, 11, 11, 11, 15, 23, 59].getD k 59
  | .fm => [11, 11, 15, 27, 19, 43].getD k 43
  | .fast => [11, 11, 15, 27, 7, 11].getD k 11

/-- Response set of frond `k` on a path (R259, R269). -/
def frondSet (p : ChainPath) (k : Nat) : RespSet :=
  match p with
  | .datacast => .d
  | .fm => .f
  | .fast => if k < 4 then .f else .s

/-- Taps of the audio passes (R264). -/
def audioTaps (k : Nat) : Nat := [11, 19, 143].getD k 143

/-- Number of a response set, as `Config.tap` takes it. -/
def RespSet.num : RespSet → Nat
  | .d => 0 | .f => 1 | .s => 2 | .w => 3

/-- One half of a response, whose coefficients are not published. -/
def halfTaps (r : RespSet) (k n : Nat) : List Int := (List.range (n / 2)).map (Config.tap r.num k)

/-- A response of `n` taps (R261): symmetric, so linear-phase; its middle makes the DC gain exactly one, that is
2^`Config.tapBits` in the units of the coefficients. -/
def response (r : RespSet) (k n : Nat) : List Int :=
  let h := halfTaps r k n
  h ++ [2 ^ Config.tapBits - 2 * sumInt h] ++ h.reverse

/-! ### Conversion to 16 bits -/

/-- Saturation to −32 767 … +32 767, and whether it acted (R260). -/
def satSample (x : Int) : Int × Bool :=
  let y := max (-32767) (min 32767 x)
  (y, y != x)

/-- The datacast path's conversion: nearest, halves to even (R262). -/
def convEven (x : Int) : Int × Bool := satSample (roundEven x Config.tapBits)

/-- The FM path's conversion: a right shift by `SHIFTk`, toward minus infinity (R263). -/
def convFloor (shift : Nat) (x : Int) : Int × Bool := satSample (x / 2 ^ (Config.tapBits + shift))

/-- `SHIFTk` of frond `k` (0 to 6) in `FRD_FM_SHIFT` (Table 8-8). -/
def shiftOf (w : Word) (k : Nat) : Nat := bits w (2 * k) 2

/-! ### One frond -/

/-- The full-precision sum of one component (R260). -/
def firSum (h xs : List Int) : Int := sumInt (List.zipWith (· * ·) h xs)

/-- A sample enters a frond; every second one, the first of all included, yields an output (R259, R260, R266). -/
def frondStep (h : List Int) (conv : Int → Int × Bool) (x : Sample) (f : Frond) : Frond × Option (Sample × Bool) :=
  let line := (x :: f.line).take h.length
  if f.skip then ({ line := line, skip := false }, none)
  else
    let i := conv (firSum h (line.map (·.1)))
    let q := conv (firSum h (line.map (·.2)))
    ({ line := line, skip := true }, some ((i.1, q.1), i.2 || q.2))

/-! ### Detectors -/

/-- The integer part of a square root below 2^(`n` + 1), by bits. -/
def sqrtBits (v : Nat) : Nat → Nat → Nat
  | 0, r => if (r + 1) * (r + 1) ≤ v then r + 1 else r
  | n + 1, r => sqrtBits v n (if (r + 2 ^ (n + 1)) * (r + 2 ^ (n + 1)) ≤ v then r + 2 ^ (n + 1) else r)

/-- √(`v` ÷ `n`) rounded to the nearest integer, a half upward, limited to 32 767 (R267, log 43). -/
def rootMean (v n : Nat) : Nat :=
  let r := sqrtBits (v / n) 16 0
  min 32767 (if n * ((2 * r + 1) * (2 * r + 1)) ≤ 4 * v then r + 1 else r)

/-- I² + Q². -/
def power (x : Sample) : Nat := x.1.natAbs * x.1.natAbs + x.2.natAbs * x.2.natAbs

/-- The magnitude of a sample (chapter 13, Detectors). -/
def magnitude (x : Sample) : Nat := rootMean (power x) 1

/-- Samples of an RMS block (R267, R269). -/
def blockLen : ChainPath → Nat
  | .fast => 64
  | _ => 256

/-- A sample reaches the detectors (R267). -/
def detect (p : ChainPath) (tc : Nat) (x : Sample) (d : Det) : Det :=
  let m := magnitude x
  let full := d.count + 1 = blockLen p
  { peak := max d.peak m
    env := d.env + ((m : Int) - d.env) / 2 ^ tc
    rms := if full then rootMean (d.sum + power x) (blockLen p) else d.rms
    sum := if full then 0 else d.sum + power x
    count := if full then 0 else d.count + 1 }

/-- RMS and envelope start from 0, and the block in progress is discarded (R268). -/
def Det.retuned (d : Det) : Det := { d with rms := 0, env := 0, sum := 0, count := 0 }

/-! ### The chain -/

/-- What the chain reads of the registers and of the state around it. -/
structure ChainEnv where
  tap : Nat
  tc : Nat
  shift : Word
  /-- Zeros replace the ADC's samples (R258). -/
  blank : Bool
  /-- Audio is asked for and its pins run (R337). -/
  audio : Bool
deriving DecidableEq, Repr

/-- Chain, detectors, and whether a component has saturated. -/
structure Flow where
  chain : Chain
  det : Det
  sat : Bool
deriving DecidableEq, Repr

/-- The detectors see the output of stage `k` (1 to 7) when `TAP` names it. -/
def watch (e : ChainEnv) (k : Nat) (x : Sample) (w : Flow) : Flow :=
  if e.tap = k then { w with det := detect w.chain.path e.tc x w.det } else w

/-- A sample enters frond `k` (0 to 6) of the present path. -/
def throughFrond (e : ChainEnv) (k : Fin 7) (x : Sample) (w : Flow) : Flow × Option Sample :=
  let p := w.chain.path
  let conv := match p with | .datacast => convEven | _ => convFloor (shiftOf e.shift k.val)
  let r := frondStep (response (frondSet p k.val) k.val (frondTaps p k.val)) conv x (w.chain.fronds.get k)
  let w1 := { w with chain := { w.chain with fronds := w.chain.fronds.set k r.1 } }
  match r.2 with
  | none => (w1, none)
  | some (y, sat) => (watch e (k.val + 1) y { w1 with sat := w1.sat || sat }, some y)

/-- Multiplication by e^(+j2πn·1000/4096) between fronds 4 and 5 of the FM path (R259): exact where the phase is a
quarter turn, else a free value of the phase and the sample, within R260 (log 43). -/
def mixSample (n : Nat) (x : Sample) : Sample :=
  match n % 512 with
  | 0 => x
  | 128 => (-x.2, x.1)
  | 256 => (-x.1, -x.2)
  | 384 => (x.2, -x.1)
  | m => ((satSample (Config.mixed m x.1 x.2).1).1, (satSample (Config.mixed m x.1 x.2).2).1)

/-- The phase advances by 125/512 of a turn for each sample. -/
def mixNext (p : ChainPath) (k : Fin 7) (x : Sample) (w : Flow) : Flow × Sample :=
  if p ≠ .datacast ∧ k = 3 then
    ({ w with chain := { w.chain with mixN := (w.chain.mixN + 125) % 512 } }, mixSample w.chain.mixN x)
  else (w, x)

/-- A sample runs through a list of fronds until one holds it back. -/
def throughFronds (e : ChainEnv) : List (Fin 7) → Sample → Flow → Flow × Option Sample
  | [], x, w => (w, some x)
  | k :: ks, x, w =>
    match throughFrond e k x w with
    | (w1, none) => (w1, none)
    | (w1, some y) =>
      let m := mixNext w1.chain.path k y w1
      throughFronds e ks m.2 m.1

/-- A pair of audio samples runs through the passes of set W (R264); the third applies `SHIFT7`. -/
def throughPasses (e : ChainEnv) : List (Fin 3) → Sample → Flow → Flow × Option Sample
  | [], x, w => (w, some x)
  | k :: ks, x, w =>
    let r := frondStep (response .w k.val (audioTaps k.val)) (convFloor (if k = 2 then shiftOf e.shift 6 else 0)) x
      (w.chain.audio.get k)
    let w1 := { w with chain := { w.chain with audio := w.chain.audio.set k r.1 } }
    match r.2 with
    | none => (w1, none)
    | some (y, sat) => throughPasses e ks y { w1 with sat := w1.sat || sat }

/-- ADC samples until the fill transient of a path has passed: twice its group delay (R266, Table 13-2). -/
def fillLen (p : ChainPath) : Nat :=
  ((List.range (if p = .datacast then 7 else 6)).map fun k => (frondTaps p k - 1) * 2 ^ k).sum

/-- ADC samples until audio passes are filled too, after a tune (R337). -/
def tuneFill : Nat := fillLen .fm + ((List.range 3).map fun k => (audioTaps k - 1) * 2 ^ (k + 6)).sum

/-- The demodulator yields a pair of audio samples at 256 kHz: a free value (log 43); it repeats the last one while its
input is blanked (R334). It feeds the passes once the path has filled (R337). -/
def feedAudio (e : ChainEnv) (n : Nat) (w : Flow) : Flow :=
  if e.audio && w.chain.path == .fm && decide (fillLen .fm ≤ w.chain.count) then
    let x : Sample := if e.blank then w.chain.lastAudio else ((Config.fmAudio n).1.toInt, (Config.fmAudio n).2.toInt)
    match throughPasses e [0, 1, 2] x { w with chain := { w.chain with lastAudio := x } } with
    | (w1, none) => w1
    | (w1, some y) =>
      watch e 7 y { w1 with chain := { w1.chain with audioOut := y, mute := w1.chain.mute - 1 } }
  else w

/-- One sample of the main ADC, number `n`: 12 bits per component, times 16; zeros under blanking and for 2 µs after it
(R258, R260). -/
def feedAdc (e : ChainEnv) (n : Nat) (w : Flow) : Flow :=
  let zero := e.blank || decide (0 < w.chain.blankTail)
  let x : Sample := if zero then (0, 0) else (16 * (Config.adcSample n).1.toInt, 16 * (Config.adcSample n).2.toInt)
  let w0 := { w with chain := { w.chain with
    count := w.chain.count + 1, blankTail := if e.blank then 33 else w.chain.blankTail - 1 } }
  let ks : List (Fin 7) := if w0.chain.path = .datacast then [0, 1, 2, 3, 4, 5, 6] else [0, 1, 2, 3, 4, 5]
  match throughFronds e ks x w0 with
  | (w1, none) => w1
  | (w1, some y) => feedAudio e n { w1 with chain := { w1.chain with out := y } }

/-- `m` samples from number `n` on. -/
def feedMany (e : ChainEnv) (n m : Nat) (w : Flow) : Flow := (List.range m).foldl (fun w i => feedAdc e (n + i) w) w

/-- ADC samples of FM reception still owed before audio may flow. -/
def Chain.owed (c : Chain) : Nat := if c.path = .fm then c.need - c.count else c.need

/-- At every start of LISTEN and after every retune the delay lines of the path start at zero; the audio passes keep
theirs across a pause and a retune to the same programme, and start at zero at a tune (R266, R337). -/
def Chain.begin (p : ChainPath) (tune : Bool) (c : Chain) : Chain :=
  { c with
    path := p, fronds := Vector.replicate 7 Frond.start, mixN := 0, count := 0
    audio := if tune then Vector.replicate 3 Frond.start else c.audio
    lastAudio := if tune then (0, 0) else c.lastAudio
    need :=
      if tune then tuneFill
      else if p = .fm then fillLen .fm + min c.owed (tuneFill - fillLen .fm) else c.owed }

/-! ### The chain in the state -/

/-- Samples flow: the radio listens and the gates of fronds and ADC stand open (R28, R259, Table 4-7). -/
def chainRuns (s : State) : Bool :=
  (s.rx.mode == .datacast || s.rx.mode == .fm) && !s.pwr.gateStat.getLsbD 1 && !s.pwr.gateStat.getLsbD 3

/-- An asserted level at a blanking pin, after `BLANK_x_LOW`, whose input is enabled (Table 8-7, R258). -/
def blankAsserted (s : State) : Bool :=
  (s.rx.coexCfg.getLsbD 4 && (s.rx.blankA != s.rx.coexCfg.getLsbD 8))
    || (s.rx.coexCfg.getLsbD 5 && (s.rx.blankB != s.rx.coexCfg.getLsbD 9))

/-- Blanking replaces the ADC's samples now (R258); outside LISTEN the inputs are ignored. -/
def blanking (s : State) : Bool := (s.rx.mode == .datacast || s.rx.mode == .fm) && blankAsserted s

/-- A booth holds FM with `AUDIO` = 1 and the I²S pins run (R337). -/
def audioAsked (s : State) : Bool :=
  s.fm.i2s && !s.pwr.gateStat.getLsbD 6 && (match s.fm.hold with | some h => h.flags.getLsbD 0 | none => false)

def chainEnv (s : State) : ChainEnv :=
  { tap := bits s.jug.detCfg 0 3, tc := bits s.jug.detCfg 8 4, shift := s.jug.fmShift, blank := blanking s
    audio := audioAsked s }

/-- `m` ADC samples pass through the chain. -/
def sampleFlow (m : Nat) (s : State) : Flow :=
  feedMany (chainEnv s) s.free m { chain := s.jug.chain, det := s.jug.det, sat := false }

/-- The I²S output carries samples, not zeros: FM is heard, locked and filled, and no fast-settle or scan is on (R247,
R249, R250, R269, R337, R339). -/
def audioFlows (s : State) : Bool :=
  audioAsked s && s.rx.mode == .fm && s.rx.lock && s.jug.chain.path == .fm && s.fm.scan.isNone
    && decide (s.jug.chain.need ≤ s.jug.chain.count) && decide (s.jug.chain.mute = 0)

/-- The pair of samples on the I²S output (R336, R337): left and right. -/
def i2sSample (s : State) : Sample := if audioFlows s then s.jug.chain.audioOut else (0, 0)

/-- A saturated component raises EV_FRD_SAT, once per datacast window and once per second of FM (R265): whether it does
now. -/
def satDue (s : State) : Bool :=
  match s.rx.mode with
  | .datacast => match s.rx.window with | some w => !w.saturated | none => false
  | .fm => match s.rx.satTick with | some t => decide (t + 32768 ≤ s.ao.rtc) | none => true
  | _ => false

/-- EV_FRD_SAT where `sat` holds, noted against its repetition; only pending
bits, in-band requests and the note depend on `sat`. -/
def noteSat (sat : Bool) (s : State) : State :=
  let act := sat && satDue s
  let up := raise .frdSat s
  { s with
    cmd := { s.cmd with booths := Vector.ofFn fun b =>
      { s.booth b with pend := if act then (up.booth b).pend else (s.booth b).pend } }
    hb := { s.hb with ibrReq := if act then up.hb.ibrReq else s.hb.ibrReq }
    rx := { s.rx with
      window := s.rx.window.map fun w => { w with saturated := w.saturated || (act && s.rx.mode == .datacast) }
      satTick := if act && s.rx.mode == .fm then some s.ao.rtc else s.rx.satTick } }

/-- The payload symbol of a frame that the present moment lies in: 562.5 µs each, after five of preamble and header
(R287, R303). -/
def symbolNow (s : State) (f : Frame) : Nat := (s.ao.rtc - f.start) * 1000 / 18432 - 5

/-- A span of zeroed samples grows by the present RTC period, or a new one begins. -/
def growSpan (now : Nat) : List (Nat × Nat) → List (Nat × Nat)
  | (a, b) :: rest => if now ≤ b + 1 then (a, now) :: rest else ((now, now) :: (a, b) :: rest).take 64
  | [] => [(now, now)]

/-- Zeroed samples lie within a span of RTC periods (R303, R334). -/
def blankedIn (s : State) (lo hi : Nat) : Bool := s.rx.blanks.any fun x => decide (x.1 ≤ hi ∧ lo ≤ x.2)

/-- Zeroed samples now: noted for header, training and RDS bits (R303, R334), and the present payload symbol is an
erasure. -/
def noteBlank (s : State) : State :=
  if blanking s then
    s.onRx fun r => { r with
      blanks := growSpan s.ao.rtc r.blanks
      frame := r.frame.map fun f =>
        if f.erased.contains (symbolNow s f) then f else { f with erased := symbolNow s f :: f.erased } }
  else s

/-- Chain and detectors are left as samples left them, `n` free values having been drawn so far; a saturation among them
is noted (R265). -/
def takeFlow (w : Flow) (n : Nat) (s : State) : State :=
  noteSat w.sat { s with jug := { s.jug with chain := w.chain, det := w.det }, free := n }

/-- The ADC samples of one RTC period, 500 of them at 16.384 MHz, pass through the chain while it runs. -/
def chainTick (s0 : State) : State :=
  let s := noteBlank s0
  if chainRuns s then takeFlow (sampleFlow 500 s) (s.free + 500) s else s

/-- The chain starts on a path: LISTEN begins or the radio has retuned (R266, R268). -/
def chainStart (p : ChainPath) (tune : Bool) (s : State) : State :=
  s.onJug fun j => { j with chain := j.chain.begin p tune, det := j.det.retuned }

/-- A fast-settle reading (R269): set S in fronds 5 and 6, and one RMS block of 64 samples after the fill. -/
def fastReading (s : State) : State :=
  let n := fillLen .fast + 64 * 64
  let s1 := chainStart .fast false s
  takeFlow (sampleFlow n s1) (s1.free + n) s1

end Sys2Proof.Machine
end

