-- ==== Sys2Proof/Machine/Aes.lean ====
section
/-! DEFINITION. AES (FIPS 197), CMAC (SP 800-38B), the key derivation of R195 (SP 800-108, counter mode) and RFC 3394
unwrapping, as Table 0-1 names them (log 20). -/

namespace Sys2Proof.Machine

/-- The S-box of FIPS 197, 32 entries per numeral, entry 0 in the lowest byte. -/
def sboxTable : List Nat :=
  [0xc072a49cafa2d4adf04759fa7dc982ca76abd7fe2b670130c56f6bf27b777c63,
   0x75b227ebe28012079a059618c323c7041531d871f1e5a534ccf73f362693fdb7,
   0xcf584c4a39becb6a5bb1fc20ed00d153842fe329b3d63b52a05a6e1b1a2c8309,
   0xd2f3ff1021dab6bcf5389d928f40a351a89f3c507f02f94585334d43fbaaefd0,
   0xdb0b5ede14b8ee4688902a22dc4f816073195d643d7ea7c41744975fec130ccd,
   0x08ae7a65eaf4566ca94ed58d6d37c8e779e4959162acd3c25c2406490a3a32e0,
   0x9e1dc186b95735610ef6034866b53e708a8bbd4b1f74dde8c6b4a61c2e2578ba,
   0x16bb54b00f2d99416842e6bf0d89a18cdf2855cee9871e9b948ed9691198f8e1]

/-- The inverse S-box of FIPS 197. -/
def invSboxTable : List Nat :=
  [0xcbe9dec444438e3487ff2f9b8239e37cfbd7f3819ea340bf38a53630d56a0952,
   0x25d18b6d49a25b76b224d92866a12e084ec3fa420b954cee3d23c2a632947b54,
   0x849d8da75746155edab9edfd5048706c92b6655dcc5ca4d41698688664f6f872,
   0x6b8a130103bdafc1020f3fca8f1e2cd00645b3b80558e4f70ad3bc8c00abd890,
   0x6edf751ce837f9e28535ade72274ac9673e6b4f0cecff297eadc674f4111913a,
   0xf45acd78fec0db9a2079d2c64b3e56fc1bbe18aa0e62b76f89c5291d711af147,
   0xef9cc9939f7ae52d0d4ab519a97f51605fec8027591012b131c7078833a8dd1f,
   0x7d0c2155631469e126d677ba7e042b17619953833cbbebc8b0f52aae4d3be0a0]

def sboxAt (t : List Nat) (b : Byte) : Byte := BitVec.ofNat 8 ((t.getD (b.toNat / 32) 0) / 2 ^ (8 * (b.toNat % 32)))
def subByte (b : Byte) : Byte := sboxAt sboxTable b
def invSubByte (b : Byte) : Byte := sboxAt invSboxTable b

/-- Multiplication by x in GF(2^8). -/
def xtime (b : Byte) : Byte := if b.msb then (b <<< 1) ^^^ 0x1B else b <<< 1

/-- Multiplication in GF(2^8) by a small constant, by its bits. -/
def gfMul (k : Nat) (b : Byte) : Byte :=
  (if k % 2 = 1 then b else 0) ^^^ (if k / 2 % 2 = 1 then xtime b else 0)
    ^^^ (if k / 4 % 2 = 1 then xtime (xtime b) else 0) ^^^ (if k / 8 % 2 = 1 then xtime (xtime (xtime b)) else 0)

def xorBytes (a b : Bytes) : Bytes := List.zipWith (· ^^^ ·) a b

/-- One column of MixColumns with the coefficients of its first row. -/
def mixCol (c0 c1 c2 c3 : Nat) : Bytes → Bytes
  | [a, b, c, d] =>
    [gfMul c0 a ^^^ gfMul c1 b ^^^ gfMul c2 c ^^^ gfMul c3 d, gfMul c3 a ^^^ gfMul c0 b ^^^ gfMul c1 c ^^^ gfMul c2 d,
     gfMul c2 a ^^^ gfMul c3 b ^^^ gfMul c0 c ^^^ gfMul c1 d, gfMul c1 a ^^^ gfMul c2 b ^^^ gfMul c3 c ^^^ gfMul c0 d]
  | x => x

def mixWith (c0 c1 c2 c3 : Nat) (s : Bytes) : Bytes :=
  mixCol c0 c1 c2 c3 (sub s 0 4) ++ mixCol c0 c1 c2 c3 (sub s 4 4) ++ mixCol c0 c1 c2 c3 (sub s 8 4)
    ++ mixCol c0 c1 c2 c3 (sub s 12 4)

def pickAll (idx : List Nat) (s : Bytes) : Bytes := idx.map (byteAt s)
def shiftRows (s : Bytes) : Bytes := pickAll [0, 5, 10, 15, 4, 9, 14, 3, 8, 13, 2, 7, 12, 1, 6, 11] s
def invShiftRows (s : Bytes) : Bytes := pickAll [0, 13, 10, 7, 4, 1, 14, 11, 8, 5, 2, 15, 12, 9, 6, 3] s

/-- Key expansion: `n` further words on the reversed list of words so far; `i` is the next word's index. -/
def expandFrom (nk : Nat) : Nat → Nat → Byte → List Bytes → List Bytes
  | 0, _, _, ws => ws
  | n + 1, i, rc, ws =>
    let prev := ws.headD []
    let t :=
      if i % nk = 0 then
        match prev with
        | [a, b, c, d] => [subByte b ^^^ rc, subByte c, subByte d, subByte a]
        | x => x
      else if nk = 8 ∧ i % 8 = 4 then prev.map subByte else prev
    expandFrom nk n (i + 1) (if i % nk = 0 then xtime rc else rc) (xorBytes (ws.getD (nk - 1) []) t :: ws)

def wordsOf : Nat → Bytes → List Bytes
  | 0, _ => []
  | n + 1, bs => bs.take 4 :: wordsOf n (bs.drop 4)

def roundKeys : Nat → List Bytes → List Bytes
  | 0, _ => []
  | n + 1, ws => (ws.take 4).flatten :: roundKeys n (ws.drop 4)

/-- The round keys of a 16- or 32-byte key, first to last. -/
def aesKeys (key : Bytes) : List Bytes :=
  let nk := key.length / 4
  let rounds := nk + 6
  roundKeys (rounds + 1) (expandFrom nk (4 * (rounds + 1) - nk) nk 1 (wordsOf nk key).reverse).reverse

def encRounds : List Bytes → Bytes → Bytes
  | [], s => s
  | [k], s => xorBytes (shiftRows (s.map subByte)) k
  | k :: ks, s => encRounds ks (xorBytes (mixWith 2 3 1 1 (shiftRows (s.map subByte))) k)

def aesEncWith (ks : List Bytes) (blk : Bytes) : Bytes := encRounds ks.tail (xorBytes blk (ks.headD []))

/-- One block under a key (FIPS 197). -/
def aesEnc (key blk : Bytes) : Bytes := aesEncWith (aesKeys key) blk

def decRounds : List Bytes → Bytes → Bytes
  | [], s => s
  | [k], s => xorBytes ((invShiftRows s).map invSubByte) k
  | k :: ks, s => decRounds ks (mixWith 14 11 13 9 (xorBytes ((invShiftRows s).map invSubByte) k))

def aesDecWith (ks : List Bytes) (blk : Bytes) : Bytes :=
  decRounds ks.reverse.tail (xorBytes blk (ks.reverse.headD []))

def aesDec (key blk : Bytes) : Bytes := aesDecWith (aesKeys key) blk

/-- Whole 16-byte blocks of `bs`. -/
def blocks16 : Nat → Bytes → List Bytes
  | 0, _ => []
  | n + 1, bs => bs.take 16 :: blocks16 n (bs.drop 16)

/-- ECB encryption and decryption (R147, modes 0 and 1). -/
def ecbEnc (key data : Bytes) : Bytes := ((blocks16 (data.length / 16) data).map (aesEncWith (aesKeys key))).flatten
def ecbDec (key data : Bytes) : Bytes := ((blocks16 (data.length / 16) data).map (aesDecWith (aesKeys key))).flatten

def ctrBlocks (ks : List Bytes) : Nat → List Bytes → Bytes
  | _, [] => []
  | c, b :: bs => xorBytes b (aesEncWith ks (beBytes 16 (c % 2 ^ 128))) ++ ctrBlocks ks (c + 1) bs

/-- CTR with the counter as a 128-bit number, most significant byte first, modulo 2^128 (R147, mode 2). -/
def ctrCrypt (key ctr data : Bytes) : Bytes :=
  ctrBlocks (aesKeys key) (ofBe ctr) (blocks16 (data.length / 16) data)

/-- Doubling in GF(2^128) for the CMAC subkeys. -/
def cmacDouble (b : Bytes) : Bytes :=
  let v := ofBe b
  beBytes 16 (Nat.xor (2 * v % 2 ^ 128) (if v / 2 ^ 127 = 1 then 0x87 else 0))

def cbcMac (ks : List Bytes) : Bytes → List Bytes → Bytes
  | x, [] => x
  | x, b :: bs => cbcMac ks (aesEncWith ks (xorBytes x b)) bs

/-- CMAC of a message, 16 bytes (SP 800-38B). -/
def cmac (key msg : Bytes) : Bytes :=
  let ks := aesKeys key
  let k1 := cmacDouble (aesEncWith ks (zeros 16))
  let full := (msg.length - 1) / 16
  let last := msg.drop (16 * full)
  let m := if last.length = 16 then xorBytes last k1 else xorBytes (padTo 16 (last ++ [0x80])) (cmacDouble k1)
  cbcMac ks (zeros 16) (blocks16 full msg ++ [m])

def kdfCalls (key label ctx : Bytes) (bitsLen : Nat) : Nat → Nat → Bytes
  | 0, _ => []
  | n + 1, i =>
    cmac key ([BitVec.ofNat 8 i] ++ label ++ [0] ++ ctx ++ beBytes 2 bitsLen) ++ kdfCalls key label ctx bitsLen n (i + 1)

/-- The derivation of R195: `len` bytes of output. -/
def kdf (key label ctx : Bytes) (len : Nat) : Bytes := (kdfCalls key label ctx (8 * len) ((len + 15) / 16) 1).take len

/-- One pass over the registers of RFC 3394, last register first; `t` counts down. -/
def unwrapPass (ks : List Bytes) : Nat → Bytes → List Bytes → Bytes × List Bytes
  | _, a, [] => (a, [])
  | t, a, r :: rs =>
    let b := aesDecWith ks (xorBytes a (beBytes 8 t) ++ r)
    let p := unwrapPass ks (t - 1) (b.take 8) rs
    (p.1, b.drop 8 :: p.2)

def unwrapRounds (ks : List Bytes) : Nat → Bytes → List Bytes → Bytes × List Bytes
  | 0, a, rs => (a, rs)
  | j + 1, a, rs =>
    let p := unwrapPass ks (rs.length * (j + 1)) a rs
    unwrapRounds ks j p.1 p.2

def blocks8 : Nat → Bytes → List Bytes
  | 0, _ => []
  | n + 1, bs => bs.take 8 :: blocks8 n (bs.drop 8)

/-- RFC 3394 unwrapping with the default initial value; none where the check fails (R198). -/
def keyUnwrap (kek wrapped : Bytes) : Option Bytes :=
  let n := wrapped.length / 8 - 1
  let p := unwrapRounds (aesKeys kek) 6 (wrapped.take 8) (blocks8 n (wrapped.drop 8)).reverse
  if p.1 = List.replicate 8 0xA6 then some p.2.reverse.flatten else none

end Sys2Proof.Machine
end

