-- ==== Sys2Proof/Machine/Sha.lean ====
section
/-! DEFINITION. SHA-256 and SHA-512 (FIPS 180-4), as Table 0-1 and R194 name them (log 20). -/

namespace Sys2Proof.Machine

/-- SHA-256 round constants, 8 per numeral, the first in the lowest bits. -/
def sha256K : List Nat :=
  [0xab1c5ed5923f82a459f111f13956c25be9b5dba5b5c0fbcf71374491428a2f98,
   0xc19bf1749bdc06a780deb1fe72be5d74550c7dc3243185be12835b01d807aa98,
   0x76f988da5cb0a9dc4a7484aa2de92c6f240ca1cc0fc19dc6efbe4786e49b69c1,
   0x1429296706ca6351d5a79147c6e00bf3bf597fc7b00327c8a831c66d983e5152,
   0x92722c8581c2c92e766a0abb650a735453380d134d2c6dfc2e1b213827b70a85,
   0x106aa070f40e3585d6990624d192e819c76c51a3c24b8b70a81a664ba2bfe8a1,
   0x682e6ff35b9cca4f4ed8aa4a391c0cb334b0bcb52748774c1e376c0819a4c116,
   0xc67178f2bef9a3f7a4506ceb90befffa8cc7020884c8781478a5636f748f82ee]

/-- SHA-512 round constants, 4 per numeral. -/
def sha512K : List Nat :=
  [0xe9b5dba58189dbbcb5c0fbcfec4d3b2f7137449123ef65cd428a2f98d728ae22,
   0xab1c5ed5da6d8118923f82a4af194f9b59f111f1b605d0193956c25bf348b538,
   0x550c7dc3d5ffb4e2243185be4ee4b28c12835b0145706fbed807aa98a3030242,
   0xc19bf174cf6926949bdc06a725c7123580deb1fe3b1696b172be5d74f27b896f,
   0x240ca1cc77ac9c650fc19dc68b8cd5b5efbe4786384f25e3e49b69c19ef14ad2,
   0x76f988da831153b55cb0a9dcbd41fbd44a7484aa6ea6e4832de92c6f592b0275,
   0xbf597fc7beef0ee4b00327c898fb213fa831c66d2db43210983e5152ee66dfab,
   0x142929670a0e6e7006ca6351e003826fd5a79147930aa725c6e00bf33da88fc2,
   0x53380d139d95b3df4d2c6dfc5ac42aed2e1b21385c26c92627b70a8546d22ffc,
   0x92722c851482353b81c2c92e47edaee6766a0abb3c77b2a8650a73548baf63de,
   0xc76c51a30654be30c24b8b70d0f89791a81a664bbc423001a2bfe8a14cf10364,
   0x106aa07032bbd1b8f40e35855771202ad69906245565a910d192e819d6ef5218,
   0x34b0bcb5e19b48a82748774cdf8eeb991e376c085141ab5319a4c116b8d2d0c8,
   0x682e6ff3d6b2b8a35b9cca4f7763e3734ed8aa4ae3418acb391c0cb3c5c95a63,
   0x8cc702081a6439ec84c87814a1f0ab7278a5636f43172f60748f82ee5defb2fc,
   0xc67178f2e372532bbef9a3f7b2c67915a4506cebde82bde990befffa23631e28,
   0xf57d4f7fee6ed178eada7dd6cde0eb1ed186b8c721c0c207ca273eceea26619c,
   0x1b710b35131c471b113f9804bef90dae0a637dc5a2c898a606f067aa72176fba,
   0x431d67c49c100d4c3c9ebe0a15c9bebc32caab7b40c7249328db77f523047d84,
   0x6c44198c4a4758175fcb6fab3ad6faec597f299cfc657e2a4cc5d4becb3e42b6]

def k256 (i : Nat) : BitVec 32 := BitVec.ofNat 32 (sha256K.getD (i / 8) 0 / 2 ^ (32 * (i % 8)))
def k512 (i : Nat) : BitVec 64 := BitVec.ofNat 64 (sha512K.getD (i / 4) 0 / 2 ^ (64 * (i % 4)))

/-- The rotation and shift amounts of a SHA-2 function: Σ0, Σ1, σ0, σ1. -/
structure ShaSpec where
  big0 : Nat × Nat × Nat
  big1 : Nat × Nat × Nat
  small0 : Nat × Nat × Nat
  small1 : Nat × Nat × Nat
deriving DecidableEq, Repr

def spec256 : ShaSpec := { big0 := (2, 13, 22), big1 := (6, 11, 25), small0 := (7, 18, 3), small1 := (17, 19, 10) }
def spec512 : ShaSpec := { big0 := (28, 34, 39), big1 := (14, 18, 41), small0 := (1, 8, 7), small1 := (19, 61, 6) }

def bigSigma {w : Nat} (p : Nat × Nat × Nat) (x : BitVec w) : BitVec w :=
  x.rotateRight p.1 ^^^ x.rotateRight p.2.1 ^^^ x.rotateRight p.2.2
def smallSigma {w : Nat} (p : Nat × Nat × Nat) (x : BitVec w) : BitVec w :=
  x.rotateRight p.1 ^^^ x.rotateRight p.2.1 ^^^ (x >>> p.2.2)

/-- The message schedule, on the reversed list of words so far. -/
def schedule {w : Nat} (sp : ShaSpec) : Nat → List (BitVec w) → List (BitVec w)
  | 0, ws => ws
  | n + 1, ws =>
    schedule sp n
      ((smallSigma sp.small1 (ws.getD 1 0) + ws.getD 6 0 + smallSigma sp.small0 (ws.getD 14 0) + ws.getD 15 0) :: ws)

/-- One round on the eight working variables. -/
def shaRound {w : Nat} (sp : ShaSpec) (kw : BitVec w) : List (BitVec w) → List (BitVec w)
  | [a, b, c, d, e, f, g, h] =>
    let t1 := h + bigSigma sp.big1 e + ((e &&& f) ^^^ (~~~ e &&& g)) + kw
    let t2 := bigSigma sp.big0 a + ((a &&& b) ^^^ (a &&& c) ^^^ (b &&& c))
    [t1 + t2, a, b, c, d + t1, e, f, g]
  | x => x

def shaRounds {w : Nat} (sp : ShaSpec) (k : Nat → BitVec w) : Nat → List (BitVec w) → List (BitVec w) → List (BitVec w)
  | _, [], v => v
  | i, m :: ms, v => shaRounds sp k (i + 1) ms (shaRound sp (k i + m) v)

def wordsBe (w : Nat) : Nat → Bytes → List (BitVec w)
  | 0, _ => []
  | n + 1, bs => BitVec.ofNat w (ofBe (bs.take (w / 8))) :: wordsBe w n (bs.drop (w / 8))

/-- The compression of one block of 16 words into the hash value. -/
def shaBlock {w : Nat} (sp : ShaSpec) (k : Nat → BitVec w) (rounds : Nat) (hv : List (BitVec w)) (blk : Bytes) :
    List (BitVec w) :=
  let ws := (schedule sp (rounds - 16) (wordsBe w 16 blk).reverse).reverse
  List.zipWith (· + ·) hv (shaRounds sp k 0 ws hv)

def shaBlocks {w : Nat} (sp : ShaSpec) (k : Nat → BitVec w) (rounds : Nat) :
    Nat → List (BitVec w) → Bytes → List (BitVec w)
  | 0, hv, _ => hv
  | n + 1, hv, bs => shaBlocks sp k rounds n (shaBlock sp k rounds hv (bs.take (2 * w))) (bs.drop (2 * w))

/-- The padding of FIPS 180-4 for blocks of `blk` bytes with a length field of `lenBytes` bytes. -/
def shaPad (blk lenBytes : Nat) (m : Bytes) : Bytes :=
  let used := m.length + 1 + lenBytes
  m ++ [0x80] ++ zeros ((blk - used % blk) % blk) ++ beBytes lenBytes (8 * m.length)

def h256 : List (BitVec 32) := [0x6a09e667, 0xbb67ae85, 0x3c6ef372, 0xa54ff53a, 0x510e527f, 0x9b05688c, 0x1f83d9ab, 0x5be0cd19]
def h512 : List (BitVec 64) :=
  [0x6a09e667f3bcc908, 0xbb67ae8584caa73b, 0x3c6ef372fe94f82b, 0xa54ff53a5f1d36f1,
   0x510e527fade682d1, 0x9b05688c2b3e6c1f, 0x1f83d9abfb41bd6b, 0x5be0cd19137e2179]

/-- SHA-256 of a message, 32 bytes. -/
def sha256 (m : Bytes) : Bytes :=
  let p := shaPad 64 8 m
  ((shaBlocks spec256 k256 64 (p.length / 64) h256 p).map fun x => beBytes 4 x.toNat).flatten

/-- SHA-512 of a message, 64 bytes. -/
def sha512 (m : Bytes) : Bytes :=
  let p := shaPad 128 16 m
  ((shaBlocks spec512 k512 80 (p.length / 128) h512 p).map fun x => beBytes 8 x.toNat).flatten

end Sys2Proof.Machine
end

