-- ==== Sys2Proof/Machine/Ed25519.lean ====
section
/-! DEFINITION. Ed25519 (RFC 8032, pure variant) with the verification of R194: canonical encodings, S below L, and
[S]B = R + [k]A without cofactor multiplication (log 20). -/

namespace Sys2Proof.Machine

/-- The field prime 2^255 − 19. -/
def edP : Nat := 2 ^ 255 - 19
/-- The group order. -/
def edL : Nat := 2 ^ 252 + 27742317777372353535851937790883648493
/-- The curve constant d. -/
def edD : Nat := 0x52036cee2b6ffe738cc740797779e89800700a4d4141d8ab75eb4dca135978a3
/-- A square root of −1. -/
def edI : Nat := 0x2b8324804fc1df0b2b4d00993dfbd7a72f431806ad2fe478c4ee1b274a0ea0b0

def fMul (a b : Nat) : Nat := a * b % edP
def fAdd (a b : Nat) : Nat := (a + b) % edP
def fSub (a b : Nat) : Nat := (a + edP - b) % edP

/-- `a ^ e` by the low `n` bits of `e`. -/
def fPow : Nat → Nat → Nat → Nat
  | 0, _, _ => 1
  | n + 1, a, e => fMul (if e % 2 = 1 then a else 1) (fPow n (fMul a a) (e / 2))

def fInv (a : Nat) : Nat := fPow 255 a (edP - 2)

/-- A point in extended coordinates X, Y, Z, T. -/
structure EdPoint where
  x : Nat
  y : Nat
  z : Nat
  t : Nat
deriving DecidableEq, Repr

def edZero : EdPoint := { x := 0, y := 1, z := 1, t := 0 }

/-- The base point B. -/
def edBase : EdPoint :=
  { x := 0x216936d3cd6e53fec0a4e231fdd6dc5c692cc7609525a7b2c9562d608f25d51a
    y := 0x6666666666666666666666666666666666666666666666666666666666666658
    z := 1
    t := 0x67875f0fd78b766566ea4e8e64abe37d20f09f80775152f56dde8ab3a5b7dda3 }

def edAdd (p q : EdPoint) : EdPoint :=
  let a := fMul (fSub p.y p.x) (fSub q.y q.x)
  let b := fMul (fAdd p.y p.x) (fAdd q.y q.x)
  let c := fMul (fMul (2 * p.t) q.t) edD
  let d := fMul (2 * p.z) q.z
  let e := fSub b a
  let f := fSub d c
  let g := fAdd d c
  let h := fAdd b a
  { x := fMul e f, y := fMul g h, z := fMul f g, t := fMul e h }

/-- `[k]P` by the low `n` bits of `k`. -/
def edMul : Nat → Nat → EdPoint → EdPoint
  | 0, _, _ => edZero
  | n + 1, k, p =>
    let r := edMul n (k / 2) (edAdd p p)
    if k % 2 = 1 then edAdd r p else r

def edEq (p q : EdPoint) : Bool := fMul p.x q.z = fMul q.x p.z ∧ fMul p.y q.z = fMul q.y p.z

/-- The canonical encoding of a point: y with the sign of x in the top bit. -/
def edEncode (p : EdPoint) : Bytes :=
  let zi := fInv p.z
  let x := fMul p.x zi
  leBytes 32 (fMul p.y zi + 2 ^ 255 * (x % 2))

/-- The point a canonical encoding names (R194). -/
def edDecode (bs : Bytes) : Option EdPoint :=
  let v := ofLe bs
  let y := v % 2 ^ 255
  let sign := v / 2 ^ 255
  let u := fSub (fMul y y) 1
  let w := fAdd (fMul edD (fMul y y)) 1
  let xx := fMul u (fInv w)
  let c := fPow 253 xx ((edP + 3) / 8)
  let x := if fMul c c = xx then c else fMul c edI
  if bs.length ≠ 32 ∨ y ≥ edP ∨ fMul x x ≠ xx ∨ (x = 0 ∧ sign = 1) then none
  else
    let x' := if x % 2 = sign then x else edP - x
    some { x := x', y := y, z := 1, t := fMul x' y }

/-- Verification as R194 states it. -/
def edVerify (pk sig msg : Bytes) : Bool :=
  let r := sig.take 32
  let s := ofLe (sig.drop 32)
  if sig.length ≠ 64 ∨ s ≥ edL then false
  else
    match edDecode pk, edDecode r with
    | some a, some rp =>
      let k := ofLe (sha512 (r ++ pk ++ msg)) % edL
      edEq (edMul 253 s edBase) (edAdd rp (edMul 253 k a))
    | _, _ => false

/-- The secret scalar of a 32-byte seed. -/
def edScalar (seed : Bytes) : Nat :=
  let a := ofLe ((sha512 seed).take 32)
  a % 2 ^ 254 / 8 * 8 + 2 ^ 254

/-- The public key of a seed. -/
def edPublic (seed : Bytes) : Bytes := edEncode (edMul 255 (edScalar seed) edBase)

/-- The signature of a message under a seed. -/
def edSign (seed msg : Bytes) : Bytes :=
  let a := edScalar seed
  let pk := edPublic seed
  let r := ofLe (sha512 ((sha512 seed).drop 32 ++ msg)) % edL
  let rb := edEncode (edMul 253 r edBase)
  let k := ofLe (sha512 (rb ++ pk ++ msg)) % edL
  rb ++ leBytes 32 ((r + k * a) % edL)

end Sys2Proof.Machine
end

