-- ==== Sys2Proof/Machine/LogOps.lean ====
section
/-! DEFINITION. The Keep's engines (R193) and the writing of the Lichen log (R359 to R369). -/

namespace Sys2Proof.Machine

/-- The 8 bytes of `ID_UNIQUE`. -/
def idBytes : Bytes := leBytes 8 Config.idUnique.toNat

/-! ### Engines -/

/-- Key slots an operation reads or writes, with the snapshot rule of R201 (case 3). -/
def JobOp.slots : JobOp → List Nat
  | .aesCrypt s _ _ _ => [s]
  | .cmac s _ _ => [s]
  | .derive_ i o _ _ => [i, o]
  | .load s _ w _ => [s, w]
  | .edSign s _ => [s]
  | _ => []

/-- The key slot with a number below 64. -/
def keySlot (s : State) (k : Nat) : KeySlot := if h : k < 64 then s.nv.keys.get ⟨k, h⟩ else KeySlot.empty

/-- Generation snapshots taken when an operation starts on its engine (R201). -/
def snapOf (s : State) (op : JobOp) : List (Nat × Half) := op.slots.map fun k => (k, (keySlot s k).gen)

/-- An AES key (Table 10-2). -/
def KeyType.isAes : KeyType → Bool
  | .aes128 => true | .aes256 => true | _ => false

/-- A slot read for an operation that needs a type for which `ok` holds (R196). -/
def slotStatus (s : State) (k : Nat) (ok : KeyType → Bool) : Option Status :=
  let t := (keySlot s k).typ
  if t = .empty then some .keyEmpty else if ok t then none else some .keyType

/-- The checks an operation makes when it first reads its slots, as it starts on its engine (R196, R198 to R201, R210). -/
def startStatus (s : State) : JobOp → Option Status
  | .aesCrypt k _ _ _ => slotStatus s k KeyType.isAes
  | .cmac k _ _ => slotStatus s k KeyType.isAes
  | .derive_ i _ _ _ => slotStatus s i KeyType.isAes
  | .load _ _ w _ => slotStatus s w (· == .wrap256)
  | .edSign k _ => slotStatus s k (· == .sign25519)
  | .random _ => if s.keep.rngFailing then some .rngFail else none
  | .sha _ => none
  | .edVerify _ _ _ => none
  | .provision => none
  | .lifeMove _ _ => none
  | .dbgSig _ _ => none

/-- Checkpoints are signed in PROVISIONED and FIELD only (R364). -/
def cpAllowed (s : State) : Bool := lifeCycle s == .provisioned || lifeCycle s == .field

/-- The chain value before the next entry (R361). -/
def chainHead (s : State) : Bytes := if s.nv.log.chain = [] then sha256 (idBytes ++ zeros 32) else s.nv.log.chain

/-- The newest sequence, or all ones while the log holds no entry (R366). -/
def newestSeq (s : State) : Nat := match s.nv.log.entries with | [] => 0xFFFFFFFFFF | e :: _ => e.seq

/-- A checkpoint over the newest entry, its fields fixed now (R364). -/
def checkpointNow (s : State) : Checkpoint :=
  { covered := newestSeq s, time := BitVec.ofNat 32 (devSec s), unc := BitVec.ofNat 32 (uMs s), chain := chainHead s
    sig := [] }

/-- Bytes 0 to 63 of a checkpoint record (Table 17-5). -/
def Checkpoint.signed (c : Checkpoint) : Bytes :=
  leBytes 5 c.covered ++ zeros 3 ++ leBytes 4 c.time.toNat ++ leBytes 4 c.unc.toNat ++ idBytes ++ c.chain ++ zeros 8

/-- Sign a checkpoint with the audit key of slot 4, and store it: the latest 256 are kept (R364). -/
def storeCheckpoint (c : Checkpoint) (s : State) : State :=
  raise .logCheckpoint
    (s.onNv fun n => { n with log := { n.log with
      checkpoints := ({ c with sig := edSign (keySlot s 4).key c.signed } :: n.log.checkpoints).take 256 } })

/-- The hash and curve engine takes its next operation: a car, then a checkpoint, then commands in the order of
acceptance (R193, R364). -/
def hashNext (s : State) : State :=
  if s.keep.hash.cur ≠ none then s
  else if s.car.queue ≠ [] then s.onKeep fun k => { k with hash := { k.hash with cur := some .car } }
  else if s.keep.cpWanted && cpAllowed s && s.nv.log.entries != [] then
    s.onKeep fun k => { k with cpWanted := false, hash := { k.hash with cur := some (.checkpoint (checkpointNow s)) } }
  else
    match s.keep.hash.queue with
    | [] => s
    | j :: js => s.onKeep fun k => { k with hash := { cur := some (.cmd j (snapOf s j.op) (startStatus s j.op)), queue := js } }

/-- The general AES engine takes its next operation (R193). -/
def aesNext (s : State) : State :=
  if s.keep.aes.cur ≠ none then s
  else
    match s.keep.aes.queue with
    | [] => s
    | j :: js => s.onKeep fun k => { k with aes := { cur := some (.cmd j (snapOf s j.op) (startStatus s j.op)), queue := js } }

/-- The operation is of a command of a booth and tag. -/
def Job.isOf (b : Booth) (t : Byte) (j : Job) : Bool :=
  match j.op with
  | .dbgSig _ _ => false
  | _ => j.booth == b && j.tag == t

/-- Queue a command's operation on an engine, which starts it if it is free (R193). -/
def enqueueHash (j : Job) (s : State) : State :=
  hashNext (s.onKeep fun k => { k with hash := { k.hash with queue := k.hash.queue ++ [j] } })
def enqueueAes (j : Job) (s : State) : State :=
  aesNext (s.onKeep fun k => { k with aes := { k.aes with queue := k.aes.queue ++ [j] } })

/-! ### Memory errors cured by writing -/

/-- Address of the 64-bit word that holds an address. -/
def wordOf (a : Nat) : Nat := a / 8 * 8

/-- Words of a space in a byte range are written anew. -/
def repair (sp : EccSpace) (a n : Nat) (s : State) : State :=
  if s.err.bad = [] ∧ s.err.told = [] then s
  else
    let keep (w : EccSpace × Nat) : Bool := !(w.1 == sp && decide (wordOf a ≤ w.2) && decide (w.2 < a + n))
    s.onErr fun e => { e with bad := e.bad.filter keep, told := e.told.filter keep }

/-! ### Writing entries -/

/-- Physical address of the slot of a sequence: the log region of Table 9-2, slot s mod 16 384. -/
def logSlot (seq : Nat) : Nat := 0x40400000 + seq % 16384 * 64

/-- Sequences of R369. -/
def sealSeq : Nat := 0xFFFFFFFFFE
def noSeq : Nat := 0xFFFFFFFFFF

/-- The sequence the next entry made will carry (R216). -/
def nextSeq (s : State) : Nat := s.nv.log.next + s.vd.wait.length

/-- No further entry can be made (R369). -/
def logSealed (s : State) : Bool := s.nv.log.sealed_ || decide (sealSeq < nextSeq s)

/-- Flags that an entry carries because of the state when it is written (Table 17-4). -/
def writeFlags (s : State) : Half :=
  (if restOk s then 0 else 0x0004) ||| (if s.nv.behind then 0x0008 else 0) ||| (if s.pwr.limit then 0x0020 else 0)
    ||| (if s.pwr.battEnd then 0x0040 else 0) ||| (if lifeCycle s = .retired then 0x0400 else 0)

/-- Bytes 0 to 47 of an entry (Table 17-2). -/
def LogEntry.head (e : LogEntry) : Bytes :=
  leBytes 5 e.seq ++ [e.kind] ++ leBytes 2 e.flags.toNat ++ leBytes 4 e.time.toNat ++ leBytes 2 e.ms.toNat ++ [e.unc]
    ++ [e.source] ++ padTo 32 e.body

/-- The 64 bytes of an entry. -/
def LogEntry.bytes (e : LogEntry) : Bytes := e.head ++ padTo 16 e.link

/-- `SP_LOG_FULL_POLICY` is DENY_NONEMERGENCY (Table 10-4). -/
def denyPolicy (s : State) : Bool := cellNat s 10 == 1

/-- Entries from the release mark to the newest (R368). -/
def unexported (s : State) : Nat := s.nv.log.next - s.nv.log.release

/-- The log is full (R368). -/
def logFull (s : State) : Bool := denyPolicy s && decide (16128 ≤ unexported s)

/-- Write one entry with the next sequence (R361, R362, R364, R368, R369); a TAMPER entry clears the tamper latch (R59). -/
def writeEntry (e : PreEntry) (s : State) : State :=
  let l := s.nv.log
  let e0 : LogEntry :=
    { seq := l.next, kind := e.kind, flags := e.flags ||| writeFlags s, time := e.time, ms := e.ms, unc := e.unc
      source := e.source, body := padTo 32 e.body, link := [] }
  let h := sha256 (chainHead s ++ e0.head)
  let past := decide (16384 ≤ l.next) && decide (l.release ≤ l.next - 16384)
  let s1 := s.onNv fun n => { n with log := { n.log with
    entries := ({ e0 with link := h.take 16 } :: n.log.entries).take 16384
    next := l.next + 1
    chain := h
    torn := false
    sealed_ := n.log.sealed_ || e.kind == 0x10
    overwritten := n.log.overwritten || past
    overCount := if past then n.log.overCount + 1 else n.log.overCount } }
  let s1 := if e.kind = 0x06 then s1.onAo fun a => { a with tamper := false, tamperStart := false } else s1
  let s1 := repair .phys (logSlot l.next) 64 s1
  let s2 := raiseIf (past && l.overCount % 256 == 0) .logOverwrite s1
  let s3 := raiseIf (logFull s1 && !logFull s) .logFull s2
  let s4 := raiseIf (e.kind == 0x10) .logSealed s3
  if l.next % 256 = 255 ∨ e.kind = 0x10 then hashNext (s4.onKeep fun k => { k with cpWanted := cpAllowed s })
  else s4

/-- Write the entries whose turn has come, in the order of their sequences (R226, R362). -/
def flushLog : Nat → State → State
  | 0, s => s
  | n + 1, s =>
    match s.vd.wait with
    | some e :: rest => flushLog n (writeEntry e (s.onVd fun v => { v with wait := rest }))
    | _ => s

/-- An entry made now (R359). -/
def entryNow (kind source : Byte) (flags : Half) (body : Bytes) (s : State) : PreEntry :=
  { kind := kind, flags := flags ||| (if timeUnsure s then 0x0080 else 0), time := BitVec.ofNat 32 (devSec s)
    ms := BitVec.ofNat 16 (devMs s), unc := uncByte s, source := source, body := body }

/-- Take the next sequence for an entry; SEAL takes the last one (R369). -/
def reserve (e : Option PreEntry) (s : State) : State :=
  if logSealed s then s
  else
    let s1 := s.onVd fun v => { v with wait := v.wait ++ [e] }
    if nextSeq s + 1 = sealSeq then
      s1.onVd fun v => { v with wait := v.wait ++ [some (entryNow 0x10 0x00 0 [] s)] }
    else s1

/-- Make an entry: it takes the next sequence and is written in its turn. -/
def logMake (kind source : Byte) (flags : Half) (body : Bytes) (s : State) : State :=
  let s1 := reserve (some (entryNow kind source flags body s)) s
  flushLog (s1.vd.wait.length) s1

/-- Write an entry that takes its turn at once; after the last sequence but one, SEAL follows (R369). -/
def writeNow (e : PreEntry) (s : State) : State :=
  let s1 := writeEntry e s
  if s1.nv.log.next = sealSeq ∧ s1.vd.wait = [] then writeEntry (entryNow 0x10 0x00 0 [] s1) s1 else s1

/-- A torn newest entry becomes LOST, with the same sequence (R362). -/
def recoverLog (s : State) : State :=
  if s.nv.log.torn then raise .logRecovered (writeNow (entryNow 0x11 0x00 0 [] s) s) else s

/-- Source bytes of log entries (Table 17-2). -/
def srcDevice : Byte := 0x00
def srcBooth (b : Booth) : Byte := 0x10 ||| BitVec.ofNat 8 b.val
def srcRemote : Byte := 0x30
def srcCarousel : Byte := 0x40
def srcKeep : Byte := 0x50

end Sys2Proof.Machine
end

