-- ==== Sys2Proof/Machine/Walk.lean ====
section
/-! DEFINITION. Memory errors of booth memory (R383, R384), the booth-table walker (R177 to R189), and the records the
device writes into a booth's virtual space (R324, R344, R345). -/

namespace Sys2Proof.Machine

/-! ### Memory errors -/

/-- The word holds an uncorrectable error. -/
def isBad (s : State) (sp : EccSpace) (a : Nat) : Bool := s.err.bad.contains (sp, wordOf a)

/-- A corrected error: EV_ECC_CORRECTED at most once a second (R384). -/
def corrected (s : State) : State :=
  match s.err.corrTick with
  | some t => if s.ao.rtc < t + 32768 then s
              else raise .eccCorrected (s.onErr fun e => { e with corrTick := some s.ao.rtc })
  | none => raise .eccCorrected (s.onErr fun e => { e with corrTick := some s.ao.rtc })

/-- The errors that a command's reads meet: hard ones stay until the word is written again (R384). -/
def applyHits : List EccHit → State → State
  | [], s => s
  | h :: hs, s =>
    let w := (h.space, wordOf h.addr)
    applyHits hs
      (if h.hard then
        (if s.err.bad.contains w then s else s.onErr fun e => { e with bad := w :: e.bad })
      else corrected s)

/-- EV_BOOTH_ECC, at most once per word until it is written again (R383, R384). -/
def boothEcc (b : Booth) (sp : EccSpace) (a : Nat) (s : State) : State :=
  if s.err.told.contains (sp, wordOf a) then s
  else raiseToBoth .boothEcc b (s.onErr fun e => { e with told := (sp, wordOf a) :: e.told })

/-- The first address from `a` on, of `n` bytes, whose word is bad. -/
def firstBad (s : State) (sp : EccSpace) : Nat → Nat → Option Nat
  | _, 0 => none
  | a, n + 1 => if isBad s sp a then some a else firstBad s sp (a + 1) n

/-! ### The walk -/

/-- A device-fault range of Table 9-2. -/
def deviceRange (a : Nat) : Bool :=
  decide (0x10000000 ≤ a ∧ a < 0x30000000) || decide (0x407F0000 ≤ a ∧ a < 0x40800000)

/-- Allowed targets of Table 9-2: the level-2 pool for level 1, booth data for level 2. -/
def allowedTarget (level : Nat) (a : Nat) : Bool :=
  if level = 0 then decide (poolBase ≤ a ∧ a < tableEnd)
  else decide (sramBoothBase ≤ a ∧ a < tableBase) || decide (storeBase ≤ a ∧ a < storeEnd)

/-- The 64-bit entry at an address (R180). -/
def entryAt (s : State) (a : Nat) : Nat := ofLe (memRead s.mem a 8)

/-- Reserved bits of an entry: level 1 (level field 0) [6:1] and [62:32], level 2 [11:2] and [62:32]. -/
def reservedBits (level : Nat) : Nat := if level = 0 then 0x7FFFFFFF0000007E else 0x7FFFFFFF00000FFC

/-- The target of an entry: `L2_ADDR` or `PAGE_ADDR` with its low bits 0. -/
def entryTarget (level e : Nat) : Nat :=
  if level = 0 then e % 2 ^ 32 / 128 * 128 else e % 2 ^ 32 / 4096 * 4096

/-- Check one entry in the order of R185; the fault kind is that of `BTH_WALK_FAULT` (1 range, 2 device, 3 ECC). -/
def checkEntry (level : Nat) (write bad : Bool) (e : Nat) : Option Nat :=
  if bad || decide (popCount 64 e % 2 = 1) || decide (Nat.land e (reservedBits level) ≠ 0) then some 3
  else if e % 2 = 0 then some 1
  else if deviceRange (entryTarget level e) then some 2
  else if !allowedTarget level (entryTarget level e) then some 1
  else if level = 1 ∧ write ∧ e / 2 % 2 = 0 then some 1
  else none

/-- Address of a booth's level-1 entry for a virtual page (R178). -/
def l1Addr (b : Booth) (page : Nat) : Nat := tableBase + b.val * 0x80 + page / 16 * 8

/-- Outcome of a walk: physical page addresses in order, or the faulting page with kind and level. -/
inductive WalkRes where
  | ok (pages : List Nat)
  | fault (page kind level : Nat)
deriving DecidableEq, Repr

/-- Walk one page (R185). -/
def walkPage (s : State) (b : Booth) (write : Bool) (page : Nat) : WalkRes :=
  let a1 := l1Addr b page
  let e1 := entryAt s a1
  match checkEntry 0 false (isBad s .phys a1) e1 with
  | some k => .fault page k 0
  | none =>
    let a2 := entryTarget 0 e1 + page % 16 * 8
    let e2 := entryAt s a2
    match checkEntry 1 write (isBad s .phys a2) e2 with
    | some k => .fault page k 1
    | none => .ok [entryTarget 1 e2]

/-- Walk `n` pages from `page`, lowest first, stopping at the first fault (R185). -/
def walkPages (s : State) (b : Booth) (write : Bool) : Nat → Nat → WalkRes
  | 0, _ => .ok []
  | n + 1, page =>
    match walkPage s b write page with
    | .fault p k l => .fault p k l
    | .ok ps =>
      match walkPages s b write n (page + 1) with
      | .fault p k l => .fault p k l
      | .ok qs => .ok (ps ++ qs)

/-- Walk every page of a transfer of `n ≥ 1` bytes. -/
def walk (s : State) (b : Booth) (write : Bool) (va n : Nat) : WalkRes :=
  walkPages s b write ((va + n - 1) / 4096 - va / 4096 + 1) (va / 4096)

/-- Lowest virtual address of the transfer in the faulting page (R186). -/
def faultVa (va page : Nat) : Nat := max va (page * 4096)

/-- Write `BTH_WALK_FAULT` and raise EV_WALK_FAULT (R186 steps 1 and 3). -/
def walkFault (b : Booth) (va kind level : Nat) (s : State) : State :=
  raiseTo .walkFault b
    (s.onBooth b fun x => { x with walkFault := at_ 0 va ||| at_ 24 kind ||| at_ 28 level })

/-- Status of a walk fault (R186). -/
def walkStatus (kind : Nat) : Status := if kind = 1 then .walkRange else if kind = 2 then .walkDevice else .walkEcc

/-- The physical runs (address, virtual address, length) of a transfer whose pages have passed. -/
def runsOf : List Nat → Nat → Nat → List (Nat × Nat × Nat)
  | [], _, _ => []
  | p :: ps, va, n =>
    let k := min n (4096 - va % 4096)
    (p + va % 4096, va, k) :: runsOf ps (va + k) (n - k)

/-- First bad word among the runs, as the virtual address of its first byte in the transfer, with its physical address. -/
def badIn (s : State) : List (Nat × Nat × Nat) → Option (Nat × Nat)
  | [] => none
  | (p, va, k) :: rs =>
    match firstBad s .phys p k with
    | some a => some (va + (a - p), a)
    | none => badIn s rs

/-- The partial 64-bit words at the ends of a run (R189): those that the write does not cover whole. -/
def partialEnds (first last : Bool) (r : Nat × Nat × Nat) : List (Nat × Nat × Nat) :=
  (if first && decide (r.1 % 8 ≠ 0) then [(r.1, r.2.1, 1)] else [])
    ++ (if last && decide ((r.1 + r.2.2) % 8 ≠ 0) then [(r.1 + r.2.2 - 1, r.2.1 + r.2.2 - 1, 1)] else [])

def endsOf : Bool → List (Nat × Nat × Nat) → List (Nat × Nat × Nat)
  | _, [] => []
  | f, [r] => partialEnds f true r
  | f, r :: rs => partialEnds f false r ++ endsOf false rs

/-- Virtual address of the first byte of the word that holds `v`, whose physical address is `p` (R189). -/
def failVa (v p : Nat) : Nat := v - p % 8

/-- Read the runs. -/
def readRuns (m : Memory) : List (Nat × Nat × Nat) → Bytes
  | [] => []
  | (p, _, k) :: rs => memRead m p k ++ readRuns m rs

/-- Write data into the runs, in ascending order (R190). -/
def writeRuns : List (Nat × Nat × Nat) → Bytes → State → State
  | [], _, s => s
  | (p, _, k) :: rs, data, s =>
    writeRuns rs (data.drop k) (repair .phys p k { s with mem := memWrite s.mem p (data.take k) })

/-- What the first `n` 64-bit words of the runs cover: a write that a reset or power loss cuts short (R190). -/
def cutRuns : Nat → List (Nat × Nat × Nat) → List (Nat × Nat × Nat)
  | _, [] => []
  | n, (p, v, k) :: rs => (p, v, min k ((p / 8 + n) * 8 - p)) :: cutRuns (n - ((p + k + 7) / 8 - p / 8)) rs

/-- Write a record of the device into a booth's virtual space (R324): whether it was written. -/
def writeRecord (b : Booth) (va : Nat) (data : Bytes) (s : State) : State × Bool :=
  match walk s b true va data.length with
  | .fault p k l => (walkFault b (faultVa va p) k l s, false)
  | .ok pages =>
    let rs := runsOf pages va data.length
    match badIn s (endsOf true rs) with
    | some (_, a) => (boothEcc b .phys a s, false)
    | none => (writeRuns rs data s, true)

/-! ### RDS and FM records -/

/-- The 128 bytes of an RDS record (Tables 16-6 and 16-7). -/
def rdsRecord (s : State) (r : Nat) (kind flags gtc : Byte) (data : Bytes) : Bytes :=
  let (freq, rbds) := match s.fm.hold with
    | some h => (h.freq, h.flags.getLsbD 1)
    | none => (0, false)
  leBytes 4 r ++ [kind, flags ||| (if rbds then 2 else 0)] ++ leBytes 2 freq
    ++ leBytes 2 (s.fm.rds.pi.getD 0) ++ [gtc, 0] ++ leBytes 4 (devSec s)
    ++ padTo 112 data

/-- Write one RDS record to a booth (R344). -/
def putRds (b : Booth) (kind flags gtc : Byte) (data : Bytes) (s : State) : State :=
  let r := (s.booth b).rdsCount
  let w := writeRecord b (0xE0000 + r % 512 * 0x80) (rdsRecord s r kind flags gtc data) s
  if w.2 then raiseTo .rdsDelivered b (w.1.onBooth b fun x => { x with rdsCount := (r + 1) % 2 ^ 32 }) else w.1

/-- An ENDED record to the holder, unless it has drained, and EV_FM_ENDED (R338). -/
def fmEndedRecord (cause : Byte) (s : State) : State :=
  match s.fm.hold with
  | none => s
  | some h => raise .fmEnded (if cause = 5 then s else putRds h.booth 0x11 0 0xFF [cause] s)

end Sys2Proof.Machine
end

