-- ==== Sys2Proof/Machine/Latch.lean ====
section
/-! DEFINITION. Battery readings (R69 to R72), the rest-sensed pins (R54 to R57) and the latch (R227 to R233). -/

namespace Sys2Proof.Machine

/-! ### Battery -/

/-- Run length of consecutive readings below a threshold in millivolts; a threshold of 0 is disabled (R70, R71). A reading
is held to the threshold of its own moment, and a write of `PWR_BATT_CFG` keeps the runs counted so far (log 53). -/
def runBelow (thr mv run : Nat) : Nat := if thr ≠ 0 ∧ mv < thr then run + 1 else 0

/-- LOW and END in millivolts (R70). -/
def lowMv (s : State) : Nat := 50 * bits s.pwr.battCfg 0 8
def endMv (s : State) : Nat := 50 * bits s.pwr.battCfg 8 8

/-- Set BATT_LOW or BATT_END after three readings in a row, raising each event once; audio stops with BATT_END, and
the I²S output is gated (R71, R72, Table 16-2 cause 6, Table 4-6). -/
def battSet (low end_ : Bool) (s : State) : State :=
  let s1 := raiseIf (low && !s.pwr.battLow) .battLow (s.onPwr fun p => { p with battLow := p.battLow || low })
  let s2 := raiseIf (end_ && !s.pwr.battEnd) .battEnd (s1.onPwr fun p => { p with battEnd := p.battEnd || end_ })
  if end_ && s.fm.i2s then
    ((fmEndedRecord 6 s2).onFm fun f =>
      { f with i2s := false, hold := f.hold.map fun h => { h with flags := h.flags &&& 0xFE } }).onPwr fun p => { p with gateStat := p.gateStat ||| 0x040 }
  else s2

/-- An idle reading (R69, R71). -/
def idleReading (mv : Half) (s : State) : State :=
  let v := mv.toNat
  let ref := if lowMv s ≠ 0 then lowMv s else endMv s
  let high := if ref ≠ 0 ∧ ref + 200 ≤ v then s.pwr.idleHigh + 1 else 0
  let low := runBelow (lowMv s) v s.pwr.idleLow
  let end_ := runBelow (endMv s) v s.pwr.idleEnd
  let s1 := s.onPwr fun p => { p with idleMv := mv, idleHigh := high, idleLow := low, idleEnd := end_ }
  let s2 := battSet (decide (3 ≤ low)) (decide (3 ≤ end_)) s1
  if 3 ≤ high then s2.onPwr fun p => { p with battLow := false, battEnd := false } else s2

/-- The loaded reading of a latch sequence that has ended (R69, R71). -/
def loadReading (s : State) : State :=
  match s.pwr.loadMin with
  | none => s
  | some mv =>
    let low := runBelow (lowMv s) mv.toNat s.pwr.loadLow
    let end_ := runBelow (endMv s) mv.toNat s.pwr.loadEnd
    battSet (decide (3 ≤ low)) (decide (3 ≤ end_))
      (s.onPwr fun p => { p with loadMv := mv, loadMin := none, loadLow := low, loadEnd := end_ })

/-- VIN sampled during a movement (R69). -/
def sampleLoad (mv : Half) (s : State) : State :=
  s.onPwr fun p => { p with loadMin := some (match p.loadMin with | none => mv | some m => if mv < m then mv else m) }

/-! ### Pins -/

/-- Indices of the rest-sensed pins. -/
def RestPin.idx : RestPin → Fin 7
  | .latchA => 0 | .latchB => 1 | .drvEn => 2 | .gp0 => 3 | .gp1 => 4 | .gp2 => 5 | .gp3 => 6

/-- A pin is driven by the device. -/
def PinDrive.driven : PinDrive → Bool
  | .rest => true | .active => true | _ => false

/-- Set the drive of one pin; a pin sensed FLOAT is never driven (R54, R56). -/
def setPin (i : Fin 7) (d : PinDrive) (s : State) : State :=
  s.onDoor fun x =>
    { x with pins := x.pins.set i (if x.rest.get i = .low ∨ x.rest.get i = .high then d else .z) }

/-- Let go of a pin: at rest for 20 µs if it was driven (R56). -/
def letGo (i : Fin 7) (s : State) : State := if (s.door.pins.get i).driven then setPin i .letGo s else s

/-- Let go of the three door outputs. -/
def letGoDoor (s : State) : State := letGo 2 (letGo 1 (letGo 0 s))

/-- GP pin `n`. -/
def gpIdx (n : Fin 4) : Fin 7 := ⟨n.val + 3, by omega⟩

/-- The GP pin named as TCXO enable (R64). -/
def tcxoPin (s : State) : Option (Fin 4) :=
  let v := bits s.pwr.tcxoCfg 0 3
  if h : 1 ≤ v ∧ v ≤ 4 then some ⟨v - 1, by omega⟩ else none

/-- Let go of every GP pin a booth drives; the TCXO enable is not one (R57). -/
def letGoBoothGps : List (Fin 4) → State → State
  | [], s => s
  | n :: ns, s => letGoBoothGps ns (if tcxoPin s = some n then s else letGo (gpIdx n) s)

/-- The idle mode of a door output is HELD and in effect (R55, R230, Table 5-3). -/
def heldIdle (s : State) (i : Fin 7) : Bool :=
  decide (i.val < 3) && s.door.outCfg.getLsbD i.val && restOk s && lifeCycle s != .retired

/-- HELD and allowed to be driven now. -/
def driveIdle (s : State) (i : Fin 7) : Bool := heldIdle s i && !s.door.driveHold && s.phase == .running

/-- A door output takes its idle mode. -/
def idlePin (i : Fin 7) (s : State) : State := if driveIdle s i then setPin i .active s else letGo i s

/-- The door outputs take their idle modes. -/
def idleOutputs (s : State) : State := idlePin 2 (idlePin 1 (idlePin 0 s))

/-! ### The latch -/

/-- The latch state of Table 11-7, R230, R231; 7 while door service is disabled (R51). -/
def latchCode (s : State) : Nat := if restOk s then s.door.latch.code else 7

def setLatch (l : LatchState) (s : State) : State := s.onDoor fun d => { d with latch := l }

/-- Movements may start: door service enabled, running, no entry into hold-safe or powering down; in RETIRED the outputs stay
RELEASED (R51, R226, R381, Table 5-3, log 52). -/
def mayMove (s : State) : Bool :=
  restOk s && s.phase == .running && !s.vd.noMove && lifeCycle s != .retired

/-- Opening movement: LATCH_A and DRV_EN active, LATCH_B at rest (Table 11-7). -/
def driveOpen (s : State) : State := setLatch .opening (setPin 2 .active (setPin 1 .rest (setPin 0 .active s)))

/-- Closing movement: LATCH_B and DRV_EN active, LATCH_A at rest. -/
def driveClose (s : State) : State := setLatch .closing (setPin 2 .active (setPin 1 .active (setPin 0 .rest s)))

/-- A HELD output at rest during the dwell of a holding lock. -/
def restPin (i : Fin 7) (s : State) : State :=
  if heldIdle s i && !s.door.driveHold then setPin i .rest s else s

/-- Dwell reached: latch state 2, or 5 for a hold (R227, R231). -/
def enterDwell (s : State) : State := setLatch (if s.door.holdOpen then .held else .dwell) s

/-- Begin a sequence from opening (R227); a holding lock goes to its dwell. -/
def beginSequence (s : State) : State :=
  let s1 := s.onDoor fun d =>
    { d with motorLock := !heldIdle s 2, seqTiming := d.timing, seqMotor := d.motor, retryWait := false
             retried := false, dead := none }
  if heldIdle s 2 then enterDwell (restPin 2 (restPin 1 (restPin 0 s1)))
  else driveOpen (s1.onPwr fun p => { p with loadMin := none })

/-- Drive DRV_EN and both direction pins to rest for the dead time of R228. -/
def beginDead (a : AfterDead) (s : State) : State :=
  setPin 2 .rest (setPin 1 .rest (setPin 0 .rest (s.onDoor fun d => { d with dead := some a })))

/-- The sequence has ended: outputs idle, latch state 0, the loaded reading taken (R227, R69). -/
def endSequence (s : State) : State :=
  loadReading (idleOutputs (s.onDoor fun d =>
    { d with latch := .idle, byGrant := false, holdOpen := false, dead := none, retryWait := false }))

/-- After the dwell: wait for the door while it is open, else close; a holding lock returns to idle (Table 11-7). -/
def afterDwell (s : State) : State :=
  if s.door.motorLock then
    (if s.door.open_ then setLatch .waiting (s.onDoor fun d => { d with holdOpen := false })
     else driveClose (s.onDoor fun d => { d with holdOpen := false }))
  else endSequence s

/-- Open time of a timing word in milliseconds: `OPEN_100MS` (R227). -/
def openMs (timing : Word) : Nat := 100 * bits timing 8 8

/-- A grant, an exit or an owner open command asks for a sequence, with a dwell of its own or that of `OPEN_100MS`
(R227, R228, R231). A sequence that runs on keeps the timing it started with (R171), and an owner's hold that it leads to
is no grant's to withdraw (R231). -/
def openDoor (byGrant : Bool) (dwell : Option Nat) (hold : Bool) (s : State) : State :=
  if !mayMove s then s
  else
    let on := (s.door.latch == .opening && s.door.dead.isNone) || s.door.latch == .dwell
    let ms := match dwell with
      | some n => n
      | none => openMs (if on then s.door.seqTiming else s.door.timing)
    let set (s : State) : State :=
      s.onDoor fun d => { d with
        dwellMs := ms, holdOpen := d.holdOpen || hold, byGrant := byGrant && !(on && d.holdOpen) }
    match s.door.latch with
    | .held => s
    | .idle => beginSequence (set s)
    | .fault => beginSequence (set s)
    | .opening => if s.door.dead.isSome then (set s).onDoor fun d => { d with dead := some .open_ } else set s
    | .dwell => if hold then enterDwell (set s) else set s
    | .waiting => beginDead .open_ (set s)
    | .closing => beginDead .open_ (set s)

/-- Stop the grant's sequence and close (R225, R228). -/
def withdrawLatch (s : State) : State :=
  if !mayMove s then s
  else
    match s.door.latch with
    | .opening => beginDead .close s
    | .dwell => if s.door.motorLock then driveClose s else endSequence s
    | .waiting => if s.door.dead.isSome then s.onDoor fun d => { d with dead := some .close }
                  else driveClose s
    | .closing => if s.door.dead.isSome then s.onDoor fun d => { d with dead := some .close } else s
    | _ => s

/-- Which movement runs, as the LATCH_FAULT entry names it. -/
def movementCode (s : State) : Byte :=
  match s.door.latch with | .opening => 1 | .closing => 2 | _ => 0

/-- A latch fault (R230): let go, latch state 6, event and log entry. -/
def latchFault (kind : Byte) (s : State) : State :=
  let mv := movementCode s
  let s1 := loadReading (letGoDoor s)
  let s2 := s1.onDoor fun d =>
    { d with latch := .fault, byGrant := false, holdOpen := false, dead := none
             retryWait := decide (kind = 1 ∧ mv = 2) && !d.retried
             driveHold := d.driveHold || decide (kind = 2) }
  logMake 0x04 srcDevice 0 ([kind, mv] ++ leBytes 2 s2.pwr.loadMv.toNat) (raise .latchFault s2)

/-- A movement ends in its ordinary way (R227, R229): opening leads to the dwell, closing to idle. -/
def movementEnd (s : State) : State :=
  match s.door.latch with
  | .opening => enterDwell (letGoDoor s)
  | .closing => endSequence s
  | _ => s

/-- Set or clear privacy, with its event and log entry (R233). -/
def setPrivacy (on : Bool) (s : State) : State :=
  if s.door.privacy = on then s
  else
    logMake 0x07 srcDevice 0 [if on then 1 else 0]
      (raise .privacy (s.onDoor fun d => { d with privacy := on }))

end Sys2Proof.Machine
end

