-- ==== Sys2Proof/Machine/Radio.lean ====
section
/-! DEFINITION. Block gates and their pre-raise (R28, R74 to R79), the radio, its calibration and windows (R240 to R258),
the clock outputs (R251 to R253), and the ends of FM reception (R338). -/

namespace Sys2Proof.Machine

/-! ### Counters -/

/-- The counters of R328, by their place in `DC_COUNTERS`. -/
inductive Counter where
  | stranger | sigReject | duplicate | rival | overrun | scope | aborted | seqFrozen
deriving DecidableEq, Repr

def Counter.idx : Counter → Fin 8
  | .stranger => 0 | .sigReject => 1 | .duplicate => 2 | .rival => 3 | .overrun => 4 | .scope => 5 | .aborted => 6
  | .seqFrozen => 7

/-- Count an outcome; the counters saturate (R328). -/
def count (c : Counter) (s : State) : State :=
  s.onCar fun x => { x with counters := x.counters.set c.idx (satInc 0xFFFFFFFF (x.counters.get c.idx)) }

/-- Discard every partial car (Table 4-7, R309). -/
def dropPartials : Nat → State → State
  | 0, s => s.onCar fun c => { c with partials := [] }
  | n + 1, s => dropPartials n (count .aborted s)

/-! ### Gates -/

/-- The blocks of Table 4-7 that have work now. -/
def neededBlocks (s : State) : BitVec 9 :=
  let listen := s.rx.mode == .datacast || s.rx.mode == .fm
  (if listen || s.jug.run.isSome || s.jug.queue != [] then 0x001#9 else 0)
    ||| (if listen then 0x00A#9 else 0)
    ||| (if s.rx.mode != .sleep || (s.rx.clk1.getLsbD 0 && s.phase != .holdSafe) then 0x004#9 else 0)
    ||| (if s.rx.mode == .datacast then 0x010#9 else 0)
    ||| (if s.fm.i2s then 0x040#9 else 0)
    ||| (if s.rx.clk0.getLsbD 0 then 0x080#9 else 0)
    ||| (if s.rx.clk1.getLsbD 0 && s.phase != .holdSafe then 0x100#9 else 0)

/-- The level that the blocks of a set wait for (R28). -/
def waitLevel (s : State) (m : BitVec 9) : Nat :=
  [0, 1, 2, 3, 4, 5, 6, 7, 8].foldl (fun l i => if m.getLsbD i then max l (preLevel s i) else l) 0

/-- A block no longer waits for its pre-raise: the level that is raised to is that of the blocks still waiting, and with
none the raise is given up (R28, R30). -/
def dropRelease (i : Nat) (s : State) : State :=
  if s.pwr.releasing.getLsbD i then
    let rest := s.pwr.releasing &&& ~~~ (1#9 <<< i)
    s.onPwr fun p => { p with releasing := rest, raising := rest != 0, preTarget := waitLevel s rest }
  else s

/-- Close one gate, remembering the level at which its block was last floor-setting (R28); passes of every 250 µs go on
after a block with canaries is gated (R26). Gating the carousel receiver discards every partial car (R309). -/
def shutGate (i : Nat) (s : State) : State :=
  let s := dropRelease i s
  if s.pwr.gateStat.getLsbD i then s
  else
    let s := if i = 4 then dropPartials s.car.partials.length s else s
    s.onPwr fun p => { p with
      gateStat := p.gateStat ||| (1#9 <<< i)
      fastPass := p.fastPass || (canaryOf i).isSome
      lastFloor := match canaryOf i with | some c => p.lastFloor.set c (some p.level) | none => p.lastFloor }

/-- Open the blocks that have work, close the others; the PBUS engine has its own rule (R133). -/
def regateOne (i : Nat) (s : State) : State :=
  if ((neededBlocks s ||| s.pwr.leased.zeroExtend 9) &&& ~~~ heldOff s).getLsbD i then openGate i s
  else shutGate i s

def regateAll : List Nat → State → State
  | [], s => s
  | i :: is, s => regateAll is (regateOne i s)

def regate (s : State) : State := regateAll [0, 1, 2, 3, 4, 6, 7, 8] s

/-! ### Reference, clock outputs and coexistence -/

/-- Something needs the TCXO (R64, R250, R251). -/
def needRef (s : State) : Bool :=
  s.rx.mode != .sleep || s.rx.clk0.getLsbD 0 || (s.rx.clk1.getLsbD 0 && s.phase != .holdSafe)

/-- The TCXO enable pin follows the need for the reference (R64, R57). -/
def tcxoDrive (s : State) : State :=
  match tcxoPin s with
  | none => s
  | some n => if needRef s then setPin (gpIdx n) .active s else letGo (gpIdx n) s

/-- The synthesiser runs (Table 12-3, R253): its gate is not held off, and the radio or CLKOUT1 needs it. -/
def synNeeded (s : State) : Bool :=
  !(heldOff s).getLsbD 2
    && (s.rx.mode == .datacast || s.rx.mode == .fm || s.rx.mode == .calibrating
        || (s.rx.clk1.getLsbD 0 && s.phase != .holdSafe))

/-- `SYN_STAT` follows the reference, the lock and the gates (R250 to R253): a synthesiser that starts settles, one that
stops loses LOCK; the delay line locks when CLKOUT0 starts. -/
def clocks (s : State) : State :=
  let ref := needRef s && !s.rx.refLost
  let on := ref && synNeeded s
  let lock := on && s.rx.lock
  let on0 := s.rx.clk0.getLsbD 0 && ref && !(heldOff s).getLsbD 7
  let want1 := s.rx.clk1.getLsbD 0 && ref && !(heldOff s).getLsbD 8 && s.phase != .holdSafe
  s.onRx fun r => { r with
    refOk := ref
    refLost := r.refLost && needRef s
    lock := lock
    synOn := on
    settling := on && !lock && r.mode != .calibrating && (r.settling || !r.synOn)
    clk0On := on0
    clk1On := want1 && lock && !r.clk1Settling
    clk1Settling := want1 && r.clk1Settling
    dllLock := on0 && !r.clk0.getLsbD 1 && r.clk0.getLsbD 2 && (r.dllLock || !r.clk0On) }

/-- What has been settling for an RTC period has settled: the synthesiser that CLKOUT1 parks, and the output (R167, R253,
log 44). -/
def clockTick (s : State) : State :=
  if s.rx.settling || s.rx.clk1Settling then
    clocks (s.onRx fun r => { r with lock := r.lock || r.settling, settling := false, clk1Settling := false })
  else s

/-- |e| now, in ps: within the bound of a loss of lock while LOCK is set (R248, R249, log 44). -/
def phaseErr (s : State) : Nat :=
  if s.rx.lock then min 150 (Config.phaseError s.ao.rtc) else Config.phaseError s.ao.rtc

/-- Density of high samples on LOCKDET, in 1/200 (R255). -/
def lockdetDensity (s : State) : Nat :=
  if !s.rx.synOn || (s.rx.mode == .calibrating && !s.rx.lock) then 0 else 200 - min (phaseErr s) 200

/-- Bring gates, reference and clock outputs in line with the radio's state. -/
def radioSettle (s : State) : State := regate (clocks (tcxoDrive s))

def setCoex (req pri : Bool) (s : State) : State := s.onRx fun r => { r with coexReq := req, coexPri := pri }

/-! ### Calibration -/

/-- Divider of Table 12-2 for an LO frequency in kHz. -/
def dividerOf (khz : Nat) : Nat :=
  if 400000 ≤ khz ∧ khz ≤ 480000 then 8 else if 850000 ≤ khz then 4 else if khz ≤ 76250 then 50
  else if khz ≤ 88250 then 44 else if khz ≤ 96250 then 40 else 36

/-- The frequency control word nearest to an LO frequency in kHz: 8 integer and 24 fraction bits of kHz × D ÷ 26 MHz
(R238). -/
def fcwOf (khz : Nat) : BitVec 32 := BitVec.ofNat 32 ((2 * khz * dividerOf khz * 2 ^ 24 + 26000) / 52000)

/-- Ratio of the divider of CLKOUT1 with 24 fraction bits, nearest to the DCO frequency 26 MHz × FCW over `FREQ_KHZ`
(R253). -/
def clk1RatioOf (fcw : BitVec 32) (freq : Nat) : Nat := (2 * 26000 * fcw.toNat + freq) / (2 * freq)

/-- Sweep of CLKOUT1 under `SS`, in hertz: lowest and highest (R254, Table 8-7). -/
def clk1Sweep (w : Word) : Nat × Nat :=
  let f := 1000 * bits w 16 16
  match bits w 4 3 with
  | 1 => (f - f * 5 / 1000, f)
  | 2 => (f - f * 10 / 1000, f)
  | 3 => (f - f * 20 / 1000, f)
  | 4 => (f - f * 5 / 1000, f + f * 5 / 1000)
  | 5 => (f - f * 10 / 1000, f + f * 10 / 1000)
  | _ => (f, f)

/-- Centre frequency of a channel ID in kHz (Table 14-1). -/
def chanKhz (c : Half) : Nat :=
  let n := c.toNat % 256
  let band := c.toNat / 16384
  (if band = 1 then 433200 else if band = 2 then 863100 else 902200) + 200 * n

/-- A valid channel ID (R282). -/
def chanOk (c : Half) : Bool :=
  let n := c.toNat % 256
  let band := c.toNat / 16384
  c.toNat / 256 % 64 = 0 && ((band = 1 && n ≤ 7) || (band = 2 && n ≤ 34) || (band = 3 && n ≤ 128))

/-- LO of an FM station in kHz: 250 kHz above the station. -/
def fmLoKhz (f : Nat) : Nat := 10 * f + 250

/-- The calibration entry of a station: its 1 MHz segment (R240). -/
def fmKey (f : Nat) : CalKey := .fm (min 107 (f / 100))

/-- What the radio is tuned to: the calibration entry it uses, its LO in kHz. -/
structure Target where
  key : CalKey
  khz : Nat
deriving DecidableEq, Repr

def dcTarget (c : Half) : Target := { key := .dc c, khz := chanKhz c }
def fmTarget (f : Nat) : Target := { key := fmKey f, khz := fmLoKhz f }

/-- A usable entry (R240). -/
def usable (s : State) (k : CalKey) : Bool :=
  s.nv.calTab.any fun e => e.key = k && e.crcOk && decide ((e.temp - s.pwr.dieTemp).natAbs ≤ 15)

def putCal (k : CalKey) (c : CalRun) (s : State) : State :=
  s.onNv fun n => { n with
    calTab := { key := k, pvt := c.pvt, acq := c.acq, gain := c.gain, temp := c.temp, crcOk := true }
      :: n.calTab.filter (·.key ≠ k) }

/-- A stored word of an entry that does not check (a bad word, CRC or index: R240, R383) is known as such from then on. -/
def markCal (k : CalKey) (ok : Bool) (s : State) : State :=
  if ok then s
  else s.onNv fun n => { n with calTab := n.calTab.map fun e => if e.key = k then { e with crcOk := false } else e }

/-- The entries of a target as a retune reads them. -/
def readCal (t : Target) (c : CalRun) (s : State) : State :=
  markCal (.band (dividerOf t.khz)) c.bandOk (markCal t.key c.entryOk s)

/-- The synthesiser takes the control word of a target; the divider of CLKOUT1 changes with it (R238, R253). -/
def setSyn (t : Target) (s : State) : State :=
  s.onRx fun r => { r with
    fcw := some (fcwOf t.khz, dividerOf t.khz)
    clk1Ratio := if r.clk1.getLsbD 0 then clk1RatioOf (fcwOf t.khz) (bits r.clk1 16 16) else r.clk1Ratio }

/-- LOCK sets, or the retune ends without it. -/
def setLock (l : Bool) (s : State) : State := s.onRx fun r => { r with lock := l, settling := false }

/-- CLKOUT1 is held low during a full calibration, with EV_CLK1_HOLD (R253 item 3). -/
def clk1Pause (s : State) : State :=
  raiseIf (s.rx.clk1.getLsbD 0 && !(heldOff s).getLsbD 8 && s.phase != .holdSafe) .clk1Hold s

/-- A full calibration (R241, R243, R253): it writes the entry, and the band-level entry where that is unusable; whether
it locks. -/
def fullCal (t : Target) (c : CalRun) (s : State) : State × Bool :=
  let s1 := clk1Pause (setSyn t s)
  if c.locks then
    let s2 := if usable s (.band (dividerOf t.khz)) then s1 else putCal (.band (dividerOf t.khz)) c s1
    (setLock true (putCal t.key c s2), true)
  else (raise .calFail (setLock false s1), false)

/-- A retune: stored when a usable entry exists, else a full calibration (R241). A stored one that misses its bound counts
as a loss of lock, which one full calibration follows (R248, R249). -/
def retune (t : Target) (c : CalRun) (s : State) : State × Bool :=
  let s0 := readCal t c s
  if usable s0 t.key then
    if c.stored then (setLock true (setSyn t s0), true)
    else fullCal t c (raise .synUnlock (setLock false (setSyn t s0)))
  else fullCal t c s0

/-! ### Frames, counters, windows -/

/-- Discard the frame in progress, with EV_CAR_ABORTED and its count (R304, R328). -/
def discardFrame (s : State) : State :=
  match s.rx.frame with
  | none => s
  | some _ => count .aborted (raise .carAborted (s.onRx fun r => { r with frame := none }))

/-- The return state after a window (R246). -/
def returnMode (s : State) : RxMode :=
  if s.fm.hold.isSome then .fm
  else match s.rx.window with | some w => if w.another then .standby else .sleep | none => .sleep

/-- Start of LISTEN on a channel or station (R266, R268); STANDBY brings no samples. `tune` says that the audio passes
start anew. -/
def listenOn (mode : RxMode) (chan : Nat) (tune : Bool) (s : State) : State :=
  let s1 :=
    if mode == .standby then s
    else (chainStart (if mode == .fm then .fm else .datacast) tune s).onJug fun j =>
      { j with paused := j.paused || j.run.isSome }
  s1.onRx fun r => { r with mode := mode, inputV := mode == .fm, chan := BitVec.ofNat 16 chan }

/-- A calibration for the held station has failed (R243): no audio runs, and an FM_TUNE in progress measures nothing. -/
def fmSilent (s : State) : State :=
  if s.rx.mode = .fm then
    s.onFm fun f => { f with i2s := false, tune := f.tune.map fun t => { t with calFailed := true } }
  else s

/-- The I²S pins run while a booth holds FM with `AUDIO`, short of BATT_END and of a failed calibration (R337, R338,
R243). -/
def i2sFollow (locked : Bool) (s : State) : State :=
  s.onFm fun f => { f with i2s :=
    locked && !s.pwr.battEnd && (match f.hold with | some h => h.flags.getLsbD 0 | none => false) }

/-- A lock under FM brings the audio back (R337). -/
def fmSound (s : State) : State := if s.rx.mode = .fm then i2sFollow true s else s

/-- FM LISTEN on a station: a stored retune, or a full calibration where the entry is unusable (R241, R243). -/
def fmListen (freq : Nat) (tune : Bool) (cal : CalRun) (s : State) : State :=
  let t := retune (fmTarget freq) cal (radioSettle (listenOn .fm freq tune (s.onRx fun r => { r with calBg := none })))
  radioSettle (if t.2 then i2sFollow true t.1 else fmSilent t.1)

/-- The radio leaves the window for its return state (R246); a held station is retuned to, unless the reference is lost
(R241, R247, R250). -/
def leaveWindow (cal : CalRun) (s : State) : State :=
  let m := returnMode s
  let s1 := setCoex false false (s.onRx fun r => { r with window := none, frame := none })
  match m, s.fm.hold with
  | .fm, some h =>
    if s.rx.refLost then radioSettle (s1.onRx fun r => { r with mode := .standby })
    else fmListen h.freq false cal s1
  | m, _ => radioSettle (s1.onRx fun r => { r with mode := m })

/-- Answer the `DC_LISTEN` that opened a window. -/
def answerListen (st : Status) (s : State) : State :=
  match s.rx.window with
  | some w =>
    match w.cmd with
    | some (b, t) =>
      replyTo b t st (if st = .ok then leBytes 2 w.frames ++ leBytes 2 w.cars else [])
        (s.onRx fun r => { r with window := some { w with cmd := none } })
    | none => s
  | none => s

/-- A retune that does not happen: where no booth holds FM, a window's end retunes to nothing. -/
def CalRun.none : CalRun := { temp := 0, pvt := 0, acq := 0, gain := 0, locks := false }

/-- End the window in progress: its frame is discarded, its command answered (R246, Table 4-7); `cal` is what the return to
a held station meets. -/
def cutWindow (st : Status) (cal : CalRun) (s : State) : State :=
  match s.rx.window with
  | none => s
  | some _ => leaveWindow cal (discardFrame (answerListen st s))

/-! ### Ends of FM -/

/-- Sender and tag of a waiting FM command. -/
def FmReq.who : FmReq → Booth × Byte
  | .tune b t _ _ _ => (b, t)
  | .scan b t _ _ _ _ _ => (b, t)

/-- Answer the waiting FM commands that satisfy `p` with a status. -/
def refuseFm (st : Status) (p : FmReq → Bool) : List FmReq → State → State
  | [], s => s.onFm fun f => { f with waiting := f.waiting.filter fun q => !p q }
  | q :: qs, s => refuseFm st p qs (if p q then replyTo q.who.1 q.who.2 st [] s else s)

/-- A scan has ended: the holder of before the scan holds FM again, or nobody (R339). -/
def afterScan (s : State) : State :=
  match s.fm.scan with
  | none => s
  | some c => s.onFm fun f => { f with scan := none, hold := c.prev }

/-- Answer the FM commands in progress and waiting with ST_CANCELLED. -/
def cancelTuning (s : State) : State :=
  let s1 := match s.fm.tune with
    | some t => replyTo t.booth t.tag .cancelled [] (s.onFm fun f => { f with tune := none })
    | none => s
  let s2 := match s1.fm.scan with
    | some c => replyTo c.booth c.tag .cancelled [] (s1.onFm fun f => { f with scan := none })
    | none => s1
  refuseFm .cancelled (fun _ => true) s2.fm.waiting s2

/-- FM reception and its hold end with a cause of Table 16-2. -/
def endFm (cause : Byte) (s : State) : State :=
  match s.fm.hold with
  | none => s
  | some _ =>
    let s1 := fmEndedRecord cause s
    let s2 := s1.onFm fun f =>
      { f with hold := none, i2s := false, rds := Rds.start, af := [], afBad := [], afTry := none
               tune := f.tune.map fun t => { t with calFailed := true }
               scan := f.scan.map fun c => { c with prev := none } }
    if s2.rx.mode = .fm then radioSettle (s2.onRx fun r => { r with mode := .sleep }) else radioSettle s2

/-! ### Routines -/

/-- The next accepted routine waits for RTN_RUN_BEGIN; a running one ends with a reply (R271, R279, R280). -/
def endRun (st : Status) (payload : Bytes) (rs : RtnState) (s : State) : State :=
  match s.jug.run with
  | none => s
  | some r =>
    radioSettle (replyTo r.booth r.tag st payload
      ((s.onJug fun j => { j with run := none, paused := false }).onBooth r.booth fun x => { x with rtnState := rs }))

/-- Cancel the waiting routine starts that satisfy `p` (R280). -/
def cancelQueued (p : RtnReq → Bool) : List RtnReq → State → State
  | [], s => s.onJug fun j => { j with queue := j.queue.filter fun q => !p q }
  | q :: qs, s =>
    cancelQueued p qs
      (if p q then replyTo q.booth q.tag .cancelled [] s else s)

/-- Every routine in flight ends with ST_CANCELLED (Table 4-7 bit 0). -/
def cancelRoutines (s : State) : State :=
  cancelQueued (fun _ => true) s.jug.queue (endRun .cancelled [] .loaded s)

/-! ### Gate requests -/

/-- The transfer on the PBUS has ended: the next one in order of acceptance is due (R145). -/
def nextXfer (s : State) : State :=
  s.onPb fun p => match p.queue with
    | [] => { p with xfer := none }
    | x :: xs => { p with xfer := some x, queue := xs }

/-- Transfers end with ST_CANCELLED: as a controller the engine sends STOP (Table 4-7). -/
def cancelXfers : List Xfer → State → State
  | [], s => s.onPb fun p => { p with xfer := none, queue := [] }
  | x :: xs, s => cancelXfers xs (replyTo x.booth x.tag .cancelled [] s)

/-- Waiting `DC_LISTEN` commands end with a status (R75, R381, R246). -/
def refuseListens (st : Status) (payload : Bytes) : List ListenReq → State → State
  | [], s => s.onRx fun r => { r with listens := [] }
  | q :: qs, s => refuseListens st payload qs (replyTo q.booth q.tag st payload s)

/-- A radio whose synthesiser is gated calibrates nothing more: it stands in STANDBY (Tables 4-7, 12-3). -/
def endCal (s : State) : State :=
  if s.rx.mode = .calibrating then s.onRx fun r => { r with mode := .standby, calBg := none } else s

/-- The outcome of Table 4-7 when the gate of a block closes by request; FM has ended, so the window returns to no
station. -/
def closeByRequest (i : Nat) (s : State) : State :=
  let s1 := if i = 0 then cancelRoutines s else s
  let s2 := if i < 4 then endCal (cutWindow .cancelled CalRun.none (endFm 4 (cancelTuning s1))) else s1
  let s2 := if i < 5 then refuseListens .gated [] s2.rx.listens s2 else s2
  let s3 := if i = 5 then cancelXfers (s2.pb.xfer.toList ++ s2.pb.queue) s2 else s2
  shutGate i s3

def closeAll (m : BitVec 9) : List Nat → State → State
  | [], s => s
  | i :: is, s => closeAll m is (if m.getLsbD i then closeByRequest i s else s)

def allGates : List Nat := [0, 1, 2, 3, 4, 5, 6, 7, 8]

/-- A lease ends: blocks under override are gated again and pending requests apply (R77, R78). -/
def endLease (s : State) : State :=
  let back := s.pwr.gatePend ||| (s.pwr.override_.zeroExtend 9 &&& s.pwr.gateReq)
  let s1 := s.onPwr fun p => { p with leased := 0, override_ := 0, gatePend := 0 }
  radioSettle (closeAll back allGates s1)

/-! ### Opening a window -/

/-- The radio retunes for a window: into LISTEN at its start, or into STANDBY until the grant. A background calibration of
the window's own channel counts as the retune, one for another channel is abandoned (R242). When calibration fails the
window ends with nothing received (R241, R243, R246); without the reference it stays in STANDBY (R250). -/
def openAs (mode : RxMode) (opened : Bool) (env : WindowEnv) (w : Window) (s : State) : State :=
  let own := s.rx.calBg = some w.chan ∧ s.rx.mode = .calibrating
  let m := if s.rx.refLost then .standby else mode
  let s1 := (radioSettle (listenOn m w.chan.toNat false (s.onRx fun r => { r with calBg := none }))).onRx fun r =>
    { r with window := some { w with opened := opened }, frame := none }
  if s.rx.refLost then s1
  else
    let t := if own then fullCal (dcTarget w.chan) env.cal s1 else retune (dcTarget w.chan) env.cal s1
    if t.2 then clocks t.1 else cutWindow .ok env.back (clocks t.1)

/-- Open a window on its channel. -/
def openNow (env : WindowEnv) (w : Window) (s : State) : State := openAs .datacast true env w s

/-- A TIME, REVOKE_DELTA or REVOKE_SNAPSHOT car is expected (R256). -/
def priTypes (t : Half) : Bool := t.getLsbD 1 || t.getLsbD 4 || t.getLsbD 5

/-- A window falls due (R256, R257): it opens, waits for the grant, or opens with EV_COEX_DENIED. -/
def windowDue (env : WindowEnv) (w : Window) (s : State) : State :=
  let coex := s.rx.coexCfg.getLsbD 0
  let s1 := setCoex coex (coex && priTypes w.types) s
  if coex && !env.gnt then
    if s.rx.coexCfg.getLsbD 1 then openAs .standby false env w s1
    else openNow env w (raise .coexDenied s1)
  else openNow env w s1

end Sys2Proof.Machine
end

