-- ==== Sys2Proof/Machine/Errors.lean ====
section
/-! DEFINITION. Verdict windows' log entries (R226), error records (R376 to R379), entry into hold-safe and the exit from
it (R380 to R382), and memory errors of device memory (R383 to R385). -/

namespace Sys2Proof.Machine

/-! ### Finished verdict windows -/

/-- The log entry of a window's member (Table 17-3, VERDICT; R224, R226). -/
def verdictEntry (w : Win) (m : Member) : PreEntry :=
  let own := w.members.filter (!·.dup)
  { kind := 0x01
    flags := m.flags ||| (if 1 < own.length then 0x0001 else 0)
    time := m.time, ms := m.ms, unc := m.unc
    source := match m.via with | .host b _ => srcBooth b | .pbus x => 0x20 ||| x
    body := sub m.token 2 6 ++ sub m.token 8 2 ++ sub m.token 10 2 ++ sub m.token 20 2 ++ sub m.token 22 2
      ++ sub m.token 16 4 ++ [m.code, BitVec.ofNat 8 m.ordinal, w.latchAt] }

/-- Replace the recent-table entry of an ID, or take a free entry, or the one granted least recently (R223). Entries are
numbered 0 to 4095; `order` holds the numbers in use, least recently granted first. -/
def recentEntry (s : State) (i : Nat) : Bytes := memRead s.mem (recentBase + 8 * i) 8

def recentFind (s : State) (id : Bytes) : Option Nat := s.nv.recentOrder.find? fun i => (recentEntry s i).take 6 = id

/-- Store the counter of a granted credential (R223). -/
def recentStore (id ctr : Bytes) (s : State) : State :=
  let order := s.nv.recentOrder
  let i :=
    match recentFind s id with
    | some i => i
    | none => if order.length < 4096 then order.length else order.headD 0
  repair .phys (recentBase + 8 * i) 8
    { (s.onNv fun n => { n with recentOrder := order.filter (· ≠ i) ++ [i] }) with
      mem := memWrite s.mem (recentBase + 8 * i) (id ++ ctr) }

/-- A verdict code that grants. -/
def granted (c : Byte) : Bool := c == 0x00 || c == 0x01

/-- Store the counters of a finished window's grants, in order (R223). -/
def storeCounters : List Member → State → State
  | [], s => s
  | m :: ms, s =>
    storeCounters ms
      (if granted m.code && !m.dup && !(byteAt m.token 1).getLsbD 0 then
        recentStore (sub m.token 2 6) (sub m.token 22 2) s
       else s)

/-- Give the waiting entries of a window's members their content. -/
def fillEntries (base : Nat) (w : Win) : List Member → List (Option PreEntry) → List (Option PreEntry)
  | [], l => l
  | m :: ms, l =>
    fillEntries base w ms
      (if m.dup || m.seq = noSeq || m.seq < base then l else l.set (m.seq - base) (some (verdictEntry w m)))

/-- Finish every closed window whose members all have their verdicts (R223, R224, R226). -/
def finishWindows : Nat → State → State
  | 0, s => s
  | n + 1, s =>
    match s.vd.windows with
    | w :: ws =>
      if w.closed && decide (w.expect = 0) then
        let s1 := storeCounters w.members s
        let s2 := s1.onVd fun v => { v with windows := ws, wait := fillEntries s1.nv.log.next w w.members v.wait }
        finishWindows n (flushLog s2.vd.wait.length s2)
      else s
    | [] => s

/-- Close the open window (R226): the latch state is noted. -/
def closeWindow (s : State) : State :=
  let l := BitVec.ofNat 8 (latchCode s)
  let s1 := s.onVd fun v =>
    { v with windows := v.windows.map fun w => if w.closed then w else { w with closed := true, latchAt := l } }
  finishWindows s1.vd.windows.length s1

/-! ### Hold-safe -/

/-- The latch sequence and booth drives stop; door and booth GP outputs are let go (R57, R380). -/
def releaseOutputs (s : State) : State :=
  letGoBoothGps [0, 1, 2, 3] (letGoDoor (s.onDoor fun d =>
    { d with latch := if d.latch = .fault then .fault else .idle, byGrant := false, holdOpen := false, dead := none
             retryWait := false }))

/-- Waiting routine starts are answered ST_HOLD_SAFE (R381 item 2). -/
def refuseQueued : List RtnReq → State → State
  | [], s => s.onJug fun j => { j with queue := [] }
  | q :: qs, s =>
    refuseQueued qs (replyTo q.booth q.tag .holdSafe [] s)

/-- Waiting PBUS transfers are answered ST_HOLD_SAFE (R381 item 2). -/
def refuseXfers : List Xfer → State → State
  | [], s => s.onPb fun p => { p with queue := [] }
  | x :: xs, s => refuseXfers xs (replyTo x.booth x.tag .holdSafe [] s)

/-- Of the engines' commands `LC_PROVISION` and `LC_FIELD` are not marked H (chapter 7). -/
def notInHold (j : Job) : Bool :=
  match j.op with
  | .provision => true
  | .lifeMove target _ => target = .field
  | _ => false

/-- Waiting operations of commands that are not marked H are answered ST_HOLD_SAFE (R381 item 2). -/
def refuseJobs : List Job → State → State
  | [], s => s
  | j :: js, s =>
    refuseJobs js
      (if notInHold j then
        replyTo j.booth j.tag .holdSafe [] (s.onKeep fun k => { k with hash := { k.hash with queue := k.hash.queue.erase j } })
       else s)

/-- Work of booths 1 to 7 is settled (R381 items 2 and 3); a transfer that has made a START completes (Table 7-4). -/
def settleWork (s : State) : State :=
  let s1 := refuseJobs s.keep.hash.queue (refuseXfers s.pb.queue (refuseQueued s.jug.queue s))
  let s2 := match s1.jug.run with
    | some r => if r.booth = 0 then s1 else endRun .cancelled [] .loaded s1
    | none => s1
  let s3 := match s2.fm.tune with
    | some t => if t.booth = 0 then s2 else replyTo t.booth t.tag .cancelled [] (s2.onFm fun f => { f with tune := none })
    | none => s2
  let s4 := match s3.fm.scan with
    | some c => if c.booth = 0 then s3 else replyTo c.booth c.tag .cancelled [] (s3.onFm fun f => { f with scan := none })
    | none => s3
  match s4.pb.xfer with
  | some x => if x.booth = 0 || x.onBus || decide (0 < x.lost) then s4
              else replyTo x.booth x.tag .cancelled [] (s4.onPb fun p => { p with xfer := none })
  | none => s4

/-- Entry into hold-safe (Table 18-3, R380, R381). -/
def enterHoldSafe (s : State) : State :=
  let s1 := { ((s.onVd fun v => { v with noMove := true }).onDoor fun d => { d with ledOn := false }) with phase := .holdSafe }
  let s2 := raise .holdSafe (releaseOutputs s1)
  let s2 := refuseFm .holdSafe (fun _ => true) s2.fm.waiting (refuseListens .holdSafe [] s2.rx.listens s2)
  let s3 := endLease (cutWindow .ok CalRun.none (endFm 3 s2))
  let s4 := radioSettle (setCoex false false (s3.onRx fun r => { r with mode := .sleep }))
  let s5 := (settleWork s4).onHb fun h => { h with ibrReq := h.ibrReq &&& 1#8 }
  closeWindow s5

/-- Exit from hold-safe (R382). -/
def exitHoldSafe (s : State) : State :=
  let s1 := { ((s.onVd fun v => { v with noMove := false }).onDoor fun d =>
    { d with ledCur := d.ledCfg, ledOn := decide (bits d.ledCfg 0 2 = 1) }) with phase := .running }
  raise .holdExit (radioSettle (idleOutputs s1))

/-! ### Error records -/

/-- An error arises: a record in a free slot, or an overflow and hold-safe (R376, R377, R379). -/
def writeErr (code : BitVec 12) (w2 w3 : Word) (s : State) : State :=
  let r (nested : Bool) : ErrRec :=
    { code := code, nested := nested, time := BitVec.ofNat 32 (devSec s), w2 := w2, w3 := w3 }
  if !s.err.aValid then raise .error (s.onErr fun e => { e with recA := r e.bValid, aValid := true })
  else if !s.err.bValid then raise .error (s.onErr fun e => { e with recB := r e.aValid, bValid := true })
  else
    let s1 := s.onErr fun e => { e with overflow := satInc 65535 e.overflow }
    if s.phase = .holdSafe then s1 else enterHoldSafe s1

/-- The one record of a loss of the crystal (R396). -/
def noteCrystal (s : State) : State :=
  if s.ao.rcSource && !s.ao.rcTold then writeErr 0x030 1 0 (s.onAo fun a => { a with rcTold := true }) else s

/-- Device memory with a physical address (R383, Table 9-2): the Ringmaster's SRAM, and the nonvolatile regions other than
images, the booth store and the Keep's. -/
def deviceWord (a : Nat) : Bool :=
  decide (a < 0x40000) || decide (0x40000000 ≤ a ∧ a < 0x40500000) || decide (0x40680000 ≤ a ∧ a < 0x40700000)

/-- The record of an uncorrectable word of device memory (Table 18-2): code, word 2, word 3. Other memory has none. -/
def eccRecord (sp : EccSpace) (a : Nat) : Option (BitVec 12 × Word × Word) :=
  match sp with
  | .phys =>
    if !deviceWord a then none
    else if a < 0x40000000 then some (0x010, BitVec.ofNat 32 a, 0)
    else some (0x011, BitVec.ofNat 32 a, if a < 0x40400000 then 1 else if a < 0x40500000 then 2 else 4)
  | .demod => some (0x012, BitVec.ofNat 32 a, 0)
  | .program => some (0x012, BitVec.ofNat 32 (a + 2 ^ 31), 0)
  | .routine => none
  | .window => none

/-- An uncorrectable word of device memory is read: one record and one event until it is written again (R384). -/
def deviceEcc (sp : EccSpace) (a : Nat) (s : State) : State :=
  match eccRecord sp (wordOf a) with
  | none => s
  | some r =>
    if s.err.told.contains (sp, wordOf a) then s
    else writeErr r.1 r.2.1 r.2.2
      (raise .eccUncorr (s.onErr fun e => { e with told := (sp, wordOf a) :: e.told }))

/-- A device word with no rule of its own is rebuilt from its source or reset (log 55); a FW_CHECK record follows the record
of a word that has a physical address (R385 item 5). -/
def rebuildWord (sp : EccSpace) (a : Nat) (s : State) : State :=
  let s1 := deviceEcc sp a s
  repair sp a 1 (if sp = .phys then writeErr 0x030 2 (BitVec.ofNat 32 (wordOf a)) s1 else s1)

/-- Memory errors of one instant, ordered by the code of the block that holds the memory, lowest first: the Juggler's
before the SRAM's and the nonvolatile array's (R377, Table 2-1). -/
def byBlock (hits : List EccHit) : List EccHit := hits.filter (·.space != .phys) ++ hits.filter (·.space == .phys)

end Sys2Proof.Machine
end

