-- ==== Sys2Proof/Machine/Clock.lean ====
section
/-! DEFINITION. The clock of the block: RTC periods and device time (R350, R351), the growth of the band (R353), beacons
(R354), learned trim (R355, R356), and the idle tick (log 1). -/

namespace Sys2Proof.Machine

/-- The temperature bin that holds a die temperature (R355); temperatures outside the table take its end bins. -/
def tempBin (t : Int) : Fin 11 := Fin.ofNat 11 (min 10 ((t + 40) / 15).toNat)

/-- Fine units of device time in one RTC period: nominal, plus the trim of the present bin (R355, log 1). -/
def tickFine (s : State) : Int := 24 * 1000000000 + trim24 s s.ao.bin

/-- The present instant, and one `n` RTC periods back at the present trim and bin (R354, R356, log 1). -/
def instantNow (s : State) : Instant := { tick := s.ao.rtc, mono := s.ao.mono, bins := s.ao.binTicks }
def instantBack (s : State) (n : Nat) : Instant :=
  { tick := s.ao.rtc - n, mono := s.ao.mono - n * (tickFine s).toNat
    bins := s.ao.binTicks.set s.ao.bin (s.ao.binTicks.get s.ao.bin - n) }

/-- A quotient as an integer; the spec does not say how it rounds (log 12). -/
def roundedDiv (num den : Int) : Int :=
  num / den + (if num % den ≠ 0 ∧ Config.roundsUp num den = true then 1 else 0)

/-- A difference of device times, in fine units, as the signed milliseconds of a log body (Table 17-3, logs 12, 23). -/
def msField (d : Int) : Bytes :=
  let ms := roundedDiv (d * 1000) fineSec
  leBytes 4 (if -(2 ^ 31) ≤ ms ∧ ms < 2 ^ 31 then BitVec.ofInt 32 ms else Config.wideMs d).toNat

/-- U has first exceeded 600 000 ms: EV_TIME_UNSURE, once the Ringmaster is released (R353). -/
def unsureCheck (s : State) : State :=
  if timeUnsure s && !s.ao.unsure && (s.phase == .running || s.phase == .holdSafe) then
    raise .timeUnsure (s.onAo fun a => { a with unsure := true })
  else s

/-- Fold the growth of U since the last pass into U, at a rate in 1/144 ppb; U saturates (R352, R353). -/
def growU (rate : Nat) (s : State) : State :=
  s.onAo fun a => { a with u := a.u.map fun u => min uMax (u + rate * (a.rtc - a.passTick)), passTick := a.rtc }

/-- A tracking pass reads the die temperature: the bin, and U grown at the larger of the two rates (R353). -/
def passTime (temp : Int) (s : State) : State :=
  let b := tempBin temp
  unsureCheck ((growU (max (rate144 s b) (rate144 s s.ao.bin)) s).onAo fun a => { a with bin := b })

/-- Start a new anchor at a reference instant; none is held on the RC source (R356, R396). -/
def newAnchor (ref : Instant) (s : State) : State :=
  s.onAo fun a => { a with anchor := if a.rcSource then none else some { ref := ref, sum := 0 } }

/-- The bin that holds 75 % or more of an interval of `e` RTC periods (R356). -/
def mainBin (v : Vector Nat 11) (e : Nat) : Option (Fin 11) :=
  (List.finRange 11).find? fun b => decide (3 * e ≤ 4 * v.get b)

/-- Store a drift estimate in parts per billion; one outside ±500 ppm is discarded (R356). -/
def putEstimate (b : Fin 11) (ppb : Int) (s : State) : State :=
  if 500000 < ppb.natAbs then s
  else raise .trimLearned (s.onNv fun n => { n with trim := n.trim.set b ((ppb :: n.trim.get b).take 4) })

/-- A beacon inside the band meets the anchor: its offset is summed, and after 900 s an estimate is made; the time spent in
each bin runs from the anchor to the beacon's reference instant (R356). -/
def useAnchor (an : Anchor) (d : Int) (ref : Instant) (s : State) : State :=
  let sum := an.sum + d
  let e := ref.tick - an.ref.tick
  if e < 900 * 32768 then s.onAo fun a => { a with anchor := some { an with sum := sum } }
  else
    match mainBin (ref.bins.zipWith (· - ·) an.ref.bins) e with
    | some b => newAnchor ref (putEstimate b (roundedDiv (trim24 s b * e + sum) (24 * e)) s)
    | none => newAnchor ref s

/-- The fields of a TIME payload (Table 15-4). -/
structure Beacon where
  utc : Nat
  us : Nat
  ofs : Int
  leap : Nat
  leapAt : Nat
  unc : Nat
deriving DecidableEq, Repr

def beaconOf (p : Bytes) : Beacon :=
  { utc := leField p 0 4, us := leField p 4 4, ofs := (BitVec.ofNat 16 (leField p 8 2)).toInt
    leap := (byteAt p 10).toNat, leapAt := leField p 12 4, unc := leField p 16 2 }

/-- The beacon time B: the beacon's time at the reference instant and the trim-corrected RTC time elapsed since then, in whole
1/32 768 s (R350, R354 item 1, log 1). -/
def beaconTime (c : Beacon) (ref : Instant) (s : State) : Nat :=
  wholeTicks (c.utc * fineSec + c.us * (fineSec / 1000000) + (s.ao.mono - ref.mono))

/-- Apply a verified TIME car whose reference instant was `ref` (R354, R356, R353, R350). -/
def applyBeacon (c : Beacon) (ref : Instant) (s : State) : State :=
  let b : Int := beaconTime c ref s
  let known := timeKnown s
  let d : Int := if known then b - wholeTicks s.ao.fine else 0
  let oldSec := devSec s
  let oldU := (uNow s).getD 0
  let outside := known && decide (oldU + c.unc * uUnit < 6 * d.natAbs)
  let write := !known || decide (fineSec ≤ d.natAbs) || outside
  let wasUnsure := s.ao.unsure || !known
  let s1 := s.onAo fun a =>
    { a with known := true, fine := b.toNat, u := some ((c.unc + 1) * uUnit), passTick := a.rtc
             beaconTick := some a.rtc, localOfs := c.ofs, unsure := false
             leap := if c.leap ≠ 0 ∧ (c.leapAt : Int) * fineSec < b then 0 else c.leap
             leapAt := if c.leap ≠ 0 ∧ (c.leapAt : Int) * fineSec < b then 0 else c.leapAt }
  let s2 :=
    if write then
      logMake 0x09 srcCarousel 0
        (leBytes 4 oldSec ++ leBytes 4 (devSec s1) ++ msField d ++ leBytes 2 c.unc ++ [if outside then 1 else 0]) s1
    else s1
  let s3 := raiseIf outside .timeJump s2
  let s4 := raiseIf wasUnsure .timeSure s3
  match s.ao.anchor with
  | some an => if !known || outside then newAnchor ref s4 else if s.ao.rcSource then s4 else useAnchor an d ref s4
  | none => newAnchor ref s4

/-! ### The idle tick -/

/-- Nothing holds the device awake: no command, credential, reception, routine, movement or engine work (R26, R117). -/
def restful (s : State) : Bool :=
  s.phase == .running && !s.hb.asleep && decide (s.hb.awakeTill ≤ s.ao.rtc) && s.cmd.svc.isEmpty
    && s.vd.intake.isEmpty && s.vd.windows.isEmpty && s.rx.mode == .sleep && s.rx.window.isNone && s.jug.run.isNone
    && s.keep.aes.cur.isNone && s.keep.hash.cur.isNone && s.pb.xfer.isNone
    && (s.door.latch == .idle || s.door.latch == .fault || s.door.latch == .held)

/-- One RTC period passes: the always-on domain counts it while it is powered, also unpowered after a powering down (R67),
the samples of the radio pass through the chain, what settles has settled, and the device may go to sleep (R259, R248, R350,
R351, R353, logs 1, 11). -/
def idleTick (s : State) : State :=
  if s.phase = .unpowered ∧ s.ao.afterDown = false then s
  else
    let s1 := s.onAo fun a => { a with
      rtc := a.rtc + 1
      mono := a.mono + (tickFine s).toNat
      binTicks := a.binTicks.set a.bin (a.binTicks.get a.bin + 1)
      fine := if timeKnown s then a.fine + (tickFine s).toNat else a.fine }
    let s2 := chainTick (clockTick (unsureCheck s1))
    if restful s2 && Config.sleepsAt s2.ao.rtc then s2.onHb fun h => { h with asleep := true } else s2

end Sys2Proof.Machine
end

