-- ==== Sys2Proof/Machine/Regs.lean ====
section
/-! DEFINITION. The register space: what a read returns at each address (chapter 8), pin levels (Table 3-6, R54), and
the front of a register write (R111, R114, R115, R155 to R160). -/

namespace Sys2Proof.Machine

/-! ### Pins -/

/-- The level of a rest-sensed pin, 1 for high (R54): what the device drives, else what the board gives; a FLOAT door
output has a level of its own (log 17). -/
def pinHigh (s : State) (i : Fin 7) : Bool :=
  let rest := s.door.rest.get i
  match s.door.pins.get i with
  | .active => rest == .low
  | .rest => rest == .high
  | .letGo => rest == .high
  | .z =>
    if 3 ≤ i.val then s.door.gpExt.getLsbD (i.val - 3)
    else if rest = .low then false else if rest = .high then true else Config.floatLevel s.free i.val

/-- Levels of GP0 to GP3 in bits [3:0]. -/
def gpLevels (s : State) : Nat :=
  bit (pinHigh s 3) + 2 * bit (pinHigh s 4) + 4 * bit (pinHigh s 5) + 8 * bit (pinHigh s 6)

/-- Levels of LATCH_A, LATCH_B and DRV_EN in bits [2:0]. -/
def outLevels (s : State) : Nat := bit (pinHigh s 0) + 2 * bit (pinHigh s 1) + 4 * bit (pinHigh s 2)

/-- `DOOR_IN[3:0]` (Table 8-9). -/
def inLevels (s : State) : Nat :=
  bit s.door.open_ + 2 * bit s.door.handle + 4 * bit s.door.tamperIn + 8 * bit s.door.credWake

/-! ### The boot record -/

def otherSlot : Slot → Slot
  | .a => .b
  | .b => .a

/-- State of a slot in the boot record. -/
def slotState (s : State) : Slot → SlotState
  | .a => s.nv.br.stA
  | .b => s.nv.br.stB

def setSlot (sl : Slot) (st : SlotState) (s : State) : State :=
  s.onNv fun n => { n with br := match sl with | .a => { n.br with stA := st } | .b => { n.br with stB := st } }

/-- Trial watchdog length: `TRIAL_S`, with 0 read as 120 (Table 5-6). -/
def trialLimit (s : State) : Nat := if s.boot.trialS = 0 then 120 else s.boot.trialS

/-- Trial seconds left; 0 when no trial runs (Table 5-6). -/
def trialRemain (s : State) : Nat :=
  match s.boot.trialStart with
  | none => 0
  | some t => trialLimit s - (s.ao.rtc - t) / 32768

/-! ### Status words -/

/-- `DOOR_REST` (Table 3-5). -/
def doorRest (s : State) : Word :=
  let c (i : Fin 7) : Nat := (s.door.rest.get i).code
  at_ 0 (c 0) ||| at_ 2 (c 1) ||| at_ 4 (c 2) ||| at_ 8 (c 3) ||| at_ 10 (c 4) ||| at_ 12 (c 5) ||| at_ 14 (c 6)
    ||| at_ 16 (bit (restOk s))

/-- `BOOT_STAT` (Table 5-6, R105). -/
def bootStat (s : State) : Word :=
  if !s.boot.written then 0
  else
    at_ 0 (bit (s.boot.slot == .b)) ||| at_ 1 (bit s.boot.trial) ||| at_ 2 (bit s.boot.fallback)
      ||| at_ 3 (bit (slotState s (otherSlot s.boot.slot) == .ready)) ||| at_ 4 (lifeCycle s).code
      ||| at_ 8 s.boot.dbg.code ||| at_ 12 (bit s.boot.ready) ||| at_ 14 (bit s.boot.calRebuilt)
      ||| at_ 16 (cellLeft s 6)

/-- `BOOT_TRIAL` (Table 5-6). -/
def bootTrial (s : State) : Word :=
  if !s.boot.written then 0 else at_ 0 (trialRemain s) ||| at_ 16 (trialLimit s)

/-- `PWR_SUPPLY_STAT` (R72). -/
def supplyStat (s : State) : Word :=
  at_ 0 (bit s.pwr.vinOk) ||| at_ 1 (bit s.pwr.vsysOk) ||| at_ 2 (bit s.pwr.vddioOk) ||| at_ 3 (bit s.pwr.vnvmOk)
    ||| at_ 4 (bit s.pwr.vsysLimit) ||| at_ 8 (bit s.pwr.battLow) ||| at_ 9 (bit s.pwr.battEnd)

/-- `PWR_VIN_MON` (R69). -/
def vinMon (s : State) : Word := at_ 0 s.pwr.idleMv.toNat ||| at_ 16 s.pwr.loadMv.toNat

/-- `PWR_VCORE_STAT` (Table 2-2). -/
def vcoreStat (s : State) : Word :=
  at_ 0 s.pwr.level ||| at_ 8 s.pwr.floorSrc ||| at_ 12 (bit s.pwr.raising) ||| at_ 13 (bit s.pwr.limit)

/-- `HB_STRAP` (R46). -/
def hbStrap (s : State) : Word :=
  match s.hb.strap with | none => 0 | some (code, base) => at_ 0 code ||| at_ 8 base.toNat

/-- `ID_INFLIGHT` (R34). -/
def idInflight (s : State) : Word := at_ 0 s.cmd.svc.length ||| at_ 8 s.car.queue.length

/-- A booth has a routine in flight (Table 8-8). -/
def routineBusy (s : State) (b : Booth) : Bool :=
  (match s.jug.run with | some r => r.booth == b | none => false) || s.jug.queue.any (·.booth = b)

/-- Reports waiting in the intake buffer (Table 6-7). -/
def intakeReports (s : State) : Nat :=
  (s.vd.intake.filter fun c => match c.via with | .pbus _ => true | .host _ _ => false).length

/-- `PB_STAT` (Table 6-7). -/
def pbStat (s : State) : Word :=
  at_ 0 (if s.pb.disabled then 2 else bit s.pb.xfer.isSome) ||| at_ 8 s.pb.arbLost ||| at_ 16 s.pb.badReports
    ||| at_ 24 (min 4 (intakeReports s))

/-- `JUG_STAT` (Table 8-8). -/
def jugStat (s : State) : Word :=
  at_ 0 (bit s.jug.released) ||| at_ 1 (if s.rx.mode = .datacast then 1 else if s.rx.mode = .fm then 2 else 0)
    ||| at_ 8 ((allBooths.map fun b => if routineBusy s b then 2 ^ b.val else 0).sum)

/-- GP pins of a booth, as a mask: those for which `f` holds. -/
def gpMask (f : Fin 4 → Bool) : Nat := bit (f 0) + 2 * bit (f 1) + 4 * bit (f 2) + 8 * bit (f 3)

/-- `BTH_GP` (Table 8-3); the TCXO enable counts as an output of booth 0 (R64). -/
def boothGp (s : State) (b : Booth) : Word :=
  let tcxo (n : Fin 4) : Bool := tcxoPin s == some n && b == 0
  let mine (n : Fin 4) : Bool := (s.door.gp.get n).booth == some b || tcxo n
  at_ 0 (gpMask mine) ||| at_ 4 (gpMask fun n => mine n && ((s.door.gp.get n).out || tcxo n)) ||| at_ 8 (gpLevels s)

/-- One byte of `DOOR_GP_ASSIGN` (Table 8-9); the TCXO enable counts as assigned to booth 0 (R64). -/
def gpAssignByte (s : State) (n : Fin 4) : Nat :=
  if tcxoPin s = some n then 0x38
  else match (s.door.gp.get n).booth with
    | none => 0
    | some b => b.val + 8 * bit (s.door.gp.get n).out + 16

/-- `RX_STATE` (Table 8-7). -/
def rxState (s : State) : Word :=
  at_ 0 s.rx.mode.code ||| at_ 4 (bit s.rx.inputV) ||| at_ 16 s.rx.chan.toNat

/-- `SYN_STAT` (Table 8-7). -/
def synStat (s : State) : Word :=
  at_ 0 (bit s.rx.refOk) ||| at_ 1 (bit s.rx.lock) ||| at_ 2 (bit s.rx.dllLock) ||| at_ 3 (bit s.rx.clk0On)
    ||| at_ 4 (bit s.rx.clk1On)

/-- One word of an error record (Table 8-9). -/
def errWord (r : ErrRec) (i : Nat) : Word :=
  if i = 0 then at_ 0 r.code.toNat ||| at_ 16 (bit r.nested) else if i = 1 then r.time else if i = 2 then r.w2 else r.w3

/-! ### Reads -/

/-- A word of a booth's window (Table 8-3). -/
def windowWord (s : State) (b : Booth) (o : Nat) : Word :=
  let x := s.booth b
  if 0x40 ≤ o ∧ o < 0x84 then x.pend.get (Fin.ofNat 17 ((o - 0x40) / 4))
  else if 0x90 ≤ o ∧ o < 0xD4 then x.mask.get (Fin.ofNat 17 ((o - 0x90) / 4))
  else
    match o with
    | 0x00 => at_ 0 b.val ||| at_ 8 x.mode.code ||| at_ 16 x.depth
    | 0x04 => at_ 0 (inFlight s b) ||| at_ 8 x.replies.length ||| at_ 16 (x.depth - depthCount s b)
    | 0x08 => at_ 0 x.malCount ||| at_ 16 x.malCause.toNat
    | 0x0C => at_ 0 (sigOf s b)
    | 0x10 => x.slots.truncate 32
    | 0x14 => (x.slots >>> 32).truncate 32
    | 0x18 => at_ 0 x.cars.toNat
    | 0x1C => at_ 0 x.rdsMask.toNat ||| at_ 31 (bit x.rdsRaw)
    | 0x20 => boothGp s b
    | 0x24 => at_ 0 x.rtnState.code ||| at_ 8 x.codeLen
    | 0x28 => x.walkFault
    | _ => 0

/-- A word of the shared read-only block (Table 8-2). -/
def sharedWord (s : State) (src : Src) (a : Nat) : Word :=
  match a with
  | 0x100 => 0x00034810
  | 0x104 => Config.idUnique.truncate 32
  | 0x108 => (Config.idUnique >>> 32).truncate 32
  | 0x10C => 0x02814830
  | 0x110 => idInflight s
  | 0x114 => at_ 0 src.booth.val ||| at_ 8 (bit (src.path == .debug))
  | 0x120 => hbStrap s
  | 0x124 => doorRest s
  | 0x128 => supplyStat s
  | 0x12C => vinMon s
  | 0x130 => bootStat s
  | 0x134 => bootTrial s
  | 0x138 => if s.boot.written then s.boot.version else 0
  | 0x13C => if s.boot.written then BitVec.ofNat 32 (versionFloor s) else 0
  | _ => 0

/-- A word of the blocks at 0x0200 to 0x04FF (Tables 8-4, 8-5, 8-6). -/
def lowWord (s : State) (src : Src) (a : Nat) : Word :=
  if 0x340 ≤ a ∧ a < 0x360 then s.pb.own.get (Fin.ofNat 8 ((a - 0x340) / 4))
  else if 0x400 ≤ a ∧ a < 0x444 then at_ 0 (s.cmd.route.get (Fin.ofNat 17 ((a - 0x400) / 4))).toNat
  else if 0x470 ≤ a ∧ a < 0x4A8 then
    let x := s.booth (Fin.ofNat 8 ((a - 0x470) / 8 + 1))
    if (a - 0x470) / 4 % 2 = 0 then x.slots.truncate 32 else (x.slots >>> 32).truncate 32
  else
    match a with
    | 0x200 => s.pwr.trackCtrl
    | 0x204 => vcoreStat s
    | 0x208 => supplyStat s
    | 0x20C => vinMon s
    | 0x210 => s.pwr.battCfg
    | 0x214 => s.pwr.tcxoCfg
    | 0x220 => at_ 0 s.pwr.gateReq.toNat
    | 0x224 => at_ 0 s.pwr.gateStat.toNat
    | 0x228 => at_ 0 s.pwr.gatePend.toNat
    | 0x22C => at_ 0 s.pwr.leased.toNat ||| at_ 8 s.pwr.override_.toNat
    | 0x240 => s.boot.causeReg
    | 0x244 => bootStat s
    | 0x248 => bootTrial s
    | 0x24C => sharedWord s src 0x138
    | 0x250 => sharedWord s src 0x13C
    | 0x300 => hbStrap s
    | 0x304 => s.hb.addrCfg
    | 0x308 => s.hb.cfg
    | 0x320 => s.pb.cfg
    | 0x324 => pbStat s
    | 0x450 => s.cmd.sig
    | 0x460 => BitVec.ofNat 32 (allBooths.map fun b => (s.booth b).mode.code * 4 ^ b.val).sum
    | 0x464 => BitVec.ofNat 32 (allBooths.map fun b => (s.booth b).depth * 16 ^ b.val).sum
    | _ => 0

/-- A word of the blocks at 0x0500 to 0x07FF (Tables 8-7, 8-8, 8-9). -/
def highWord (s : State) (a : Nat) : Word :=
  match a with
  | 0x500 => s.rx.clk0
  | 0x504 => s.rx.clk1
  | 0x508 => synStat s
  | 0x510 => rxState s
  | 0x514 => at_ 0 s.rx.evm.toNat ||| at_ 8 s.rx.lqi.toNat ||| at_ 16 s.rx.rssi.toNat
  | 0x518 => s.rx.coexCfg
  | 0x600 => s.jug.detCfg
  | 0x604 => s.jug.fmShift
  | 0x608 => at_ 0 s.jug.det.peak
  | 0x60C => at_ 0 s.jug.det.rms
  | 0x610 => at_ 0 s.jug.det.env.toNat
  | 0x620 => jugStat s
  | 0x624 => s.jug.rtnCfg
  | 0x700 => doorRest s
  | 0x704 => s.door.outCfg
  | 0x708 => at_ 0 (inLevels s) ||| at_ 8 (outLevels s) ||| at_ 16 (gpLevels s)
  | 0x70C => s.door.inCfg
  | 0x710 => s.door.timing
  | 0x714 => s.door.motor
  | 0x718 => at_ 0 (gpAssignByte s 0) ||| at_ 8 (gpAssignByte s 1) ||| at_ 16 (gpAssignByte s 2)
      ||| at_ 24 (gpAssignByte s 3)
  | 0x71C => s.door.ledCfg
  | 0x740 => at_ 0 (bit (s.phase == .holdSafe)) ||| at_ 1 (bit s.err.aValid) ||| at_ 2 (bit s.err.bValid)
  | 0x744 => at_ 0 s.err.overflow
  | 0x750 => errWord s.err.recA 0
  | 0x754 => errWord s.err.recA 1
  | 0x758 => errWord s.err.recA 2
  | 0x75C => errWord s.err.recA 3
  | 0x760 => errWord s.err.recB 0
  | 0x764 => errWord s.err.recB 1
  | 0x768 => errWord s.err.recB 2
  | 0x76C => errWord s.err.recB 3
  | _ => 0

/-- What a read of an aligned address returns to a sender (Tables 8-1, 8-10; R93 in the loader state). -/
def readReg (s : State) (src : Src) (a : Nat) : Word :=
  if s.boot.loader then (if 0x100 ≤ a ∧ a < 0x200 then sharedWord s src a else 0)
  else if a < 0x100 then windowWord s src.booth a
  else if a < 0x200 then sharedWord s src a
  else if src.booth ≠ 0 then 0
  else if a < 0x500 then lowWord s src a
  else if a < 0x800 then highWord s a
  else windowWord s (Fin.ofNat 8 ((a - 0x800) / 0x100)) (a % 0x100)

/-- Words of a read that starts at `a`: `n` of them, 0 past 0x0FFF (R114). -/
def readWords (s : State) (src : Src) (a : Nat) : Nat → Bytes
  | 0 => []
  | n + 1 => leBytes 4 (if a < 0x1000 then readReg s src a else 0).toNat ++ readWords s src (a + 4) n

/-! ### The front of a write -/

/-- A write is discarded as a whole (R8). -/
def regReject (s : State) : State := raise .regReject s

/-- A booth 1 to 7 reaches past its view (R115). -/
def boothPrivEvent (b : Booth) (s : State) : State := raiseToBoth .boothPriv b s

/-- An alias of booth 0's own window is that window (R155). -/
def regAddr (a : Nat) : Nat := if 0x800 ≤ a ∧ a < 0x900 then a - 0x800 else a

/-- One word written at an aligned address below 0x1000: whether it is acknowledged, and its effect (R111, R114, R115,
R93). `k` is the register's own effect; booths 1 to 7 reach only their window. -/
def writeWord (src : Src) (a : Nat) (k : State → State) (s : State) : State :=
  let s1 := setSel src (.register (a + 4)) s
  if s.boot.loader then s1
  else if src.booth = 0 || decide (a < 0x100) then k s1
  else setAck false (boothPrivEvent src.booth (setSel src (.register a) s))

/-- A register-port write transaction of one word: the bus, then the word. -/
def regPort (src : Src) (a : Nat) (k : State → State) (s : State) : State :=
  let f := busFront src true s
  if f.2 then writeWord src a k f.1 else f.1

end Sys2Proof.Machine
end

