-- ==== Sys2Proof/Machine/RegWrites.lean ====
section
/-! DEFINITION. Register writes, one operation per register (chapter 8 and the chapters it names), and the commands that
make them. A locked field is ignored; a reserved encoding discards the whole write with EV_REG_REJECT (R6 to R9). -/

namespace Sys2Proof.Machine

/-- Booths that begin to have something to announce request in-band (R375, R124). -/
def ibrNewly (before : State) : List Booth → State → State
  | [], s => s
  | b :: bs, s =>
    ibrNewly before bs
      (if ibrWants s b && !ibrWants before b then s.onHb fun h => { h with ibrReq := h.ibrReq ||| (1#8 <<< b.val) } else s)

/-! ### Power -/

/-- `PWR_TRACK_CTRL` (R30, R31). -/
def writeTrackCtrl (v : Word) (s : State) : State :=
  if 2 ≤ bits v 0 2 ∨ 36 ≤ bits v 8 6 then regReject s
  else
    s.onPwr fun p => { p with
      trackCtrl := v &&& 0x3F03
      level := if bits v 0 2 = 1 then bits v 8 6 else p.level }

/-- `PWR_BATT_CFG` (R70). -/
def writeBattCfg (v : Word) (s : State) : State :=
  let low := bits v 0 8
  let end_ := bits v 8 8
  if s.pwr.battCfg.getLsbD 31 then s
  else if (1 ≤ low ∧ low ≤ 84) ∨ (1 ≤ end_ ∧ end_ ≤ 84) ∨ (low ≠ 0 ∧ end_ ≠ 0 ∧ low ≤ end_) then regReject s
  else s.onPwr fun p => { p with battCfg := v &&& 0x8000FFFF }

/-- `PWR_TCXO_CFG` (R64). -/
def writeTcxoCfg (v : Word) (s : State) : State :=
  let n := bits v 0 3
  let set (s : State) : State := tcxoDrive (s.onPwr fun p => { p with tcxoCfg := v &&& 0xF07 })
  if n = bits s.pwr.tcxoCfg 0 3 then set s
  else
    let old (s : State) : State := match tcxoPin s with | some k => letGo (gpIdx k) s | none => s
    if n = 0 then set (old s)
    else if h : 1 ≤ n ∧ n ≤ 4 then
      let k : Fin 4 := ⟨n - 1, by omega⟩
      let other := match (s.door.gp.get k).booth with | some b => b != 0 | none => false
      if s.door.rest.get (gpIdx k) = .float || other then regReject s
      else
        set (old (letGo (gpIdx k) (s.onDoor fun d => { d with gp := d.gp.set k { booth := none, out := false } })))
    else regReject s

/-- The PBUS engine, which is gated of itself in sleep alone, runs again when a request for it is withdrawn (R74, R133). -/
def openPbus (was : Bool) (s : State) : State := if was && !s.pwr.gateReq.getLsbD 5 then openGate 5 s else s

/-- `PWR_GATE_REQ` (R74, R77): new bits apply at once, or wait for a lease; cleared bits are withdrawn. -/
def writeGateReq (v : Word) (s : State) : State :=
  let req : BitVec 9 := v.truncate 9
  let new := req &&& ~~~ s.pwr.gateReq
  let wait := new &&& (s.pwr.leased.zeroExtend 9)
  let s1 := s.onPwr fun p => { p with gateReq := req, gatePend := (p.gatePend &&& req) ||| wait }
  openPbus (s.pwr.gateReq.getLsbD 5) (radioSettle (closeAll (new &&& ~~~ wait) allGates s1))

/-! ### Buses -/

/-- Reserved host-bus addresses (R106). -/
def addrReserved (a : Nat) : Bool := decide (a < 8 ∨ 0x78 ≤ a)

/-- An address that a setting of `HB_ADDR_CFG` would answer is reserved (R108). -/
def cfgAnswersReserved (s : State) (v : Word) : Bool :=
  let base := match s.hb.strap with | some (_, b) => b.toNat | none => 0x20
  if bits v 0 2 = 0 then allBooths.any fun b => addrReserved (base + b.val)
  else if bits v 0 2 = 1 then
    allBooths.any fun b => addrReserved (Nat.lor (bits v 16 7) (Nat.land b.val (bits v 8 3)))
  else addrReserved base

/-- `HB_ADDR_CFG` (R107, R108): an accepted write waits for the end of its transaction. -/
def writeAddrCfg (v : Word) (s : State) : State :=
  if s.hb.addrCfg.getLsbD 31 then s
  else if bits v 0 2 = 3 ∨ Nat.land (bits v 16 3) (bits v 8 3) ≠ 0 ∨ cfgAnswersReserved s v = true then regReject s
  else s.onHb fun h => { h with addrPend := some (v &&& 0x807F0703) }

/-- The pending `HB_ADDR_CFG` takes effect (R108). -/
def applyAddrCfg (s : State) : State :=
  match s.hb.addrPend with
  | none => s
  | some v => s.onHb fun h => { h with addrCfg := v, addrPend := none }

/-- `HB_CFG` (R120). -/
def writeHbCfg (v : Word) (s : State) : State :=
  if bits v 16 8 = 0 then regReject s
  else ibrNewly s allBooths (s.onHb fun h => { h with cfg := v &&& 0x00FF011F })

/-- `PB_CFG` (R127). -/
def writePbCfg (v : Word) (s : State) : State :=
  if bits v 0 2 = 3 ∨ bits v 16 8 = 0 then regReject s else s.onPb fun p => { p with cfg := v &&& 0x00FF03F3 }

/-- `PB_OWNn` (R127). -/
def writePbOwn (n : Fin 8) (v : Word) (s : State) : State :=
  let a := bits v 0 7
  if v.getLsbD 15 && (decide (a = 0x3C) || addrReserved a) then regReject s
  else s.onPb fun p => { p with own := p.own.set n (v &&& 0x0000877F) }

/-- A bus clear ends (R132). -/
def busClear (r : ClearResult) (s : State) : State :=
  match r with
  | .freed => s.onPb fun p => { p with disabled := false }
  | .stuck => raise .pbusStuck (s.onPb fun p => { p with disabled := true })

/-- `PB_CTRL` (R132). -/
def writePbCtrl (v : Word) (r : ClearResult) (s : State) : State := if v.getLsbD 0 then busClear r s else s

/-! ### Event routing and booth control -/

/-- `BTH_SLOTSn_LO` and `_HI` (R166). Booth 0 has no such register. -/
def writeSlots (b : Booth) (hi : Bool) (v : Word) (s : State) : State :=
  if b = 0 then s
  else
    let m : DWord := if hi then v.zeroExtend 64 <<< 32 else (v &&& 0xFFFFFF00).zeroExtend 64
    let keep : DWord := if hi then 0x00000000FFFFFFFF else 0xFFFFFFFF00000000
    if allBooths.any fun o => o != 0 && o != b && ((s.booth o).slots &&& m != 0) then regReject s
    else s.onBooth b fun x => { x with slots := (x.slots &&& keep) ||| m }

/-- `EVR_ROUTEg` (R164, R165). -/
def writeRoute (g : Fin 17) (v : Word) (s : State) : State :=
  s.onCmd fun c => { c with route := c.route.set g (v.truncate 8 ||| 1) }

/-- `EVR_SIG` (R164, R374, R375). -/
def writeSig (v : Word) (s : State) : State :=
  ibrNewly s allBooths (s.onCmd fun c => { c with sig := v &&& 0x77777777 })

/-- `BTH_EV_PENDg`: a written 1 clears, and a bit set at the same moment stays set (R157). -/
def writePend (b : Booth) (g : Fin 17) (v same : Word) (s : State) : State :=
  let now := same &&& evBits g.val
  let s1 := s.onBooth b fun x => { x with pend := x.pend.set g ((x.pend.get g &&& ~~~ v) ||| now) }
  if now &&& (s.booth b).mask.get g ≠ 0 then ibrArise b s1 else s1

/-- `BTH_EV_MASKg` (R161, R370). -/
def writeMask (b : Booth) (g : Fin 17) (v : Word) (s : State) : State :=
  ibrNewly s [b] (s.onBooth b fun x => { x with mask := x.mask.set g (v &&& evBits g.val) })

/-! ### Clocks, radio, fronds, Juggler -/

/-- `SYN_CLK0_CFG` (R251, R252). -/
def writeClk0 (v : Word) (s : State) : State :=
  let on (w : Word) : Bool := w.getLsbD 2 && !w.getLsbD 1
  let start := on v && !on s.rx.clk0
  radioSettle (s.onRx fun r => { r with clk0 := v &&& 7, dllLock := r.dllLock || start })

/-- `SYN_CLK1_CFG` (R167, R253): enabling the output, or a change of `FREQ_KHZ`, `SS` or `FORMAT` while it is enabled, holds
it low until it has settled; the divider's ratio follows the DCO frequency of the last retune. -/
def writeClk1 (v : Word) (s : State) : State :=
  let w := v &&& 0xFFFF0073
  if 6 ≤ bits v 4 3 ∨ (v.getLsbD 0 = true ∧ (bits v 16 16 < 1000 ∨ 50000 < bits v 16 16)) then regReject s
  else
    radioSettle (s.onRx fun r => { r with
      clk1 := w
      clk1Settling := v.getLsbD 0 && (r.clk1Settling || w != r.clk1)
      clk1Ratio := match r.fcw with
        | some x => if v.getLsbD 0 then clk1RatioOf x.1 (bits v 16 16) else r.clk1Ratio
        | none => r.clk1Ratio })

/-- `RX_COEX_CFG` (Table 8-7): with `COEX_EN` 0 the requests are held low. -/
def writeCoexCfg (v : Word) (s : State) : State :=
  noteBlank <| s.onRx fun r => { r with
    coexCfg := v &&& 0x333
    coexReq := r.coexReq && v.getLsbD 0
    coexPri := r.coexPri && v.getLsbD 0 }

/-- `FRD_DET_CFG` (R168, R268): a change of tap restarts the detectors. -/
def writeDetCfg (v : Word) (s : State) : State :=
  if bits v 0 3 = 0 then regReject s
  else
    let s1 := s.onJug fun j => { j with detCfg := v &&& 0xF07 }
    if bits v 0 3 = bits s.jug.detCfg 0 3 then s1 else s1.onJug fun j => { j with det := Det.start }

/-- `FRD_FM_SHIFT` (Table 8-8). -/
def writeFmShift (v : Word) (s : State) : State := s.onJug fun j => { j with fmShift := v &&& 0x3FFF }

/-- `FRD_CTRL` (R268). -/
def writeFrdCtrl (v : Word) (s : State) : State :=
  if v.getLsbD 0 then s.onJug fun j => { j with det := { j.det with peak := 0 } } else s

/-- `JUG_RTN_CFG` (R168). -/
def writeRtnCfg (v : Word) (s : State) : State :=
  if bits v 0 8 = 0 then regReject s else s.onJug fun j => { j with rtnCfg := v &&& 0xFFFF }

/-! ### Door -/

/-- Door outputs take their idle modes when no sequence is in progress (R54, R55, R158, R230). -/
def settleOutputs (s : State) : State :=
  if s.phase = .running ∧ s.door.latch = .idle ∧ s.door.dead = none then idleOutputs s else s

/-- `DOOR_OUT_CFG` (R55, R234): LOCK saves the door record. -/
def writeOutCfg (v : Word) (s : State) : State :=
  if s.door.outCfg.getLsbD 31 then s
  else
    let s1 := settleOutputs (s.onDoor fun d => { d with outCfg := v &&& 0x80000007 })
    let saved : DoorRec :=
      { idle := s1.door.outCfg.truncate 3, inCfg := s1.door.inCfg.truncate 16, timing := s1.door.timing
        motor := s1.door.motor }
    if v.getLsbD 31 then s1.onNv fun n => { n with doorRec := some saved } else s1

/-- Report the tamper latch: event and entry, whose writing clears it (R59). -/
def reportTamper (s : State) : State :=
  logMake 0x06 srcDevice (if s.ao.tamperStart then 0x0100 else 0) [] (raise .tamper s)

/-- The tamper latch captures an assertion (R59). -/
def latchTamper (s : State) : State :=
  if alive s then
    (if s.ao.tamper then raise .tamper s else reportTamper (s.onAo fun a => { a with tamper := true, tamperStart := false }))
  else s.onAo fun a => { a with tamper := true, tamperStart := true }

/-- TAMPER_IN changes while VIN and VDDIO are present (R59). -/
def tamperChanges (asserted : Bool) (s : State) : State :=
  if s.phase = .unpowered ∨ s.pwr.vddioOk = false then s
  else
    let s1 := s.onDoor fun d => { d with tamperIn := asserted }
    if asserted then latchTamper s1 else s1

/-- CRED_WAKE asserts while it is monitored: the PBUS engine is ungated unless a request holds it off (R133, R214,
Table 3-6). -/
def wakePbus (s : State) : State :=
  if s.phase = .running then (if s.pwr.gateReq.getLsbD 5 then s else openGate 5 s) else s

/-- The input polarities and debounce take a value: the levels at TAMPER_IN and CRED_WAKE stand, so a changed polarity
turns their assertion round (R172, R214, log 51). -/
def setInCfg (v : Word) (s : State) : State :=
  let flipT := v.getLsbD 2 != s.ao.tamperLow
  let flipC := v.getLsbD 3 != s.door.inCfg.getLsbD 3
  let s1 := (s.onDoor fun d =>
    { d with inCfg := v, tamperIn := d.tamperIn != flipT, credWake := d.credWake != flipC }).onAo fun a =>
    { a with tamperLow := v.getLsbD 2 }
  let s2 := if flipC && s1.door.credWake then wakePbus s1 else s1
  if flipT && s1.door.tamperIn then latchTamper s2 else s2

/-- `DOOR_IN_CFG` (R172, Table 8-9); the tamper polarity is held in the always-on domain. -/
def writeInCfg (v : Word) (s : State) : State :=
  if s.door.inCfg.getLsbD 31 then s else setInCfg (v &&& 0x8000FF0F) s

/-- `DOOR_TIMING` (R171). -/
def writeTiming (v : Word) (s : State) : State :=
  if bits v 0 8 < 5 ∨ 100 < bits v 0 8 ∨ bits v 8 8 = 0 ∨ bits v 16 8 < 10 then regReject s
  else s.onDoor fun d => { d with timing := v &&& 0x00FFFFFF }

/-- `DOOR_MOTOR_CFG` (R171). -/
def writeMotor (v : Word) (s : State) : State :=
  if 1200 < bits v 0 12 then regReject s else s.onDoor fun d => { d with motor := v &&& 0x00FF0FFF }

/-- `DOOR_LED_CFG` (R170): modes 0 and 1 apply at once, mode 2 from the next period start. -/
def writeLed (v : Word) (s : State) : State :=
  if bits v 0 2 = 3 ∨ bits v 8 8 = 0 ∨ bits v 16 8 = 0 ∨ 10 * bits v 16 8 ≤ bits v 8 8 then regReject s
  else
    s.onDoor fun d =>
      let w := v &&& 0x00FFFF03
      if bits v 0 2 = 2 then { d with ledCfg := w }
      else if s.phase = .running then { d with ledCfg := w, ledCur := w, ledOn := decide (bits v 0 2 = 1) }
      else { d with ledCfg := w, ledCur := w }

/-! ### Errors -/

/-- `ERR_CTRL` (R378, R382): acknowledgements first, then the exit. -/
def writeErrCtrl (v : Word) (s : State) : State :=
  let s1 := s.onErr fun e => { e with aValid := e.aValid && !v.getLsbD 0, bValid := e.bValid && !v.getLsbD 1 }
  if v.getLsbD 8 && s1.phase == .holdSafe then
    (if s1.err.aValid || s1.err.bValid then regReject s1 else exitHoldSafe s1)
  else s1

/-! ### The whole map -/

/-- A word written to the window of a booth (Table 8-3, R160). -/
def writeWindow (b : Booth) (o : Nat) (v : Word) (s : State) : State :=
  if 0x40 ≤ o ∧ o < 0x84 then writePend b (Fin.ofNat 17 ((o - 0x40) / 4)) v 0 s
  else if 0x90 ≤ o ∧ o < 0xD4 then writeMask b (Fin.ofNat 17 ((o - 0x90) / 4)) v s
  else s

/-- A word written in the privileged view, by address (R9, R155, R159); `r` is what a bus clear through `PB_CTRL` would
find (R132). -/
def writePriv (a : Nat) (v : Word) (r : ClearResult) (s : State) : State :=
  if 0x340 ≤ a ∧ a < 0x360 then writePbOwn (Fin.ofNat 8 ((a - 0x340) / 4)) v s
  else if 0x400 ≤ a ∧ a < 0x444 then writeRoute (Fin.ofNat 17 ((a - 0x400) / 4)) v s
  else if 0x470 ≤ a ∧ a < 0x4A8 then
    writeSlots (Fin.ofNat 8 ((a - 0x470) / 8 + 1)) (decide ((a - 0x470) / 4 % 2 = 1)) v s
  else
    match a with
    | 0x200 => writeTrackCtrl v s
    | 0x210 => writeBattCfg v s
    | 0x214 => writeTcxoCfg v s
    | 0x220 => writeGateReq v s
    | 0x304 => writeAddrCfg v s
    | 0x308 => writeHbCfg v s
    | 0x320 => writePbCfg v s
    | 0x328 => writePbCtrl v r s
    | 0x450 => writeSig v s
    | 0x500 => writeClk0 v s
    | 0x504 => writeClk1 v s
    | 0x518 => writeCoexCfg v s
    | 0x600 => writeDetCfg v s
    | 0x604 => writeFmShift v s
    | 0x614 => writeFrdCtrl v s
    | 0x624 => writeRtnCfg v s
    | 0x704 => writeOutCfg v s
    | 0x70C => writeInCfg v s
    | 0x710 => writeTiming v s
    | 0x714 => writeMotor v s
    | 0x71C => writeLed v s
    | 0x748 => writeErrCtrl v s
    | _ => s

/-- A word written by a booth at an address of its view. -/
def writeReg (b : Booth) (a : Nat) (v : Word) (r : ClearResult) (s : State) : State :=
  let x := regAddr a
  if x < 0x100 then writeWindow b x v s else if b = 0 then writePriv x v r s else s

/-! ### Commands -/

/-- REG_WRITE: one word to an aligned address below 0x1000; otherwise the second address byte is NACKed (R114). -/
def execRegWrite (src : Src) (addr : Half) (value : Word) (clear : ClearResult) (s : State) : Host.Outcome State Fault Refusal :=
  let a := addr.toNat
  if a % 4 = 0 ∧ a < 0x1000 then .next (regPort src a (writeReg src.booth a value clear) s)
  else .next (setAck false (busFront src true s).1)

def execPwrTrackCtrlWrite (src : Src) (value : Word) (s : State) : Host.Outcome State Fault Refusal :=
  .next (regPort src 0x200 (writeTrackCtrl value) s)

def execPwrBattCfgWrite (src : Src) (value : Word) (s : State) : Host.Outcome State Fault Refusal :=
  .next (regPort src 0x210 (writeBattCfg value) s)

def execPwrTcxoCfgWrite (src : Src) (value : Word) (s : State) : Host.Outcome State Fault Refusal :=
  .next (regPort src 0x214 (writeTcxoCfg value) s)

/-- GATE_REQUEST: a write of `PWR_GATE_REQ` (R74). -/
def execGateRequest (src : Src) (value : Word) (s : State) : Host.Outcome State Fault Refusal :=
  .next (regPort src 0x220 (writeGateReq value) s)

/-- GATE_WITHDRAW: a write of `PWR_GATE_REQ` (R74). -/
def execGateWithdraw (src : Src) (value : Word) (s : State) : Host.Outcome State Fault Refusal :=
  .next (regPort src 0x220 (writeGateReq value) s)

def execHbAddrCfgWrite (src : Src) (value : Word) (s : State) : Host.Outcome State Fault Refusal :=
  .next (regPort src 0x304 (writeAddrCfg value) s)

/-- HB_ADDR_CFG_APPLY: the STOP or repeated START that ends the transaction of an accepted write (R108). -/
def execHbAddrCfgApply (s : State) : Host.Outcome State Fault Refusal := .next (applyAddrCfg s)

def execHbCfgWrite (src : Src) (value : Word) (s : State) : Host.Outcome State Fault Refusal :=
  .next (regPort src 0x308 (writeHbCfg value) s)

def execPbCfgWrite (src : Src) (value : Word) (s : State) : Host.Outcome State Fault Refusal :=
  .next (regPort src 0x320 (writePbCfg value) s)

def execPbOwnWrite (src : Src) (n : Fin 8) (value : Word) (s : State) : Host.Outcome State Fault Refusal :=
  .next (regPort src (0x340 + 4 * n.val) (writePbOwn n value) s)

def execPbClear (src : Src) (value : Word) (clear : ClearResult) (s : State) : Host.Outcome State Fault Refusal :=
  .next (regPort src 0x328 (writePbCtrl value clear) s)

def execBthSlotsWrite (src : Src) (booth : Booth) (hi : Bool) (value : Word) (s : State) :
    Host.Outcome State Fault Refusal :=
  .next (regPort src (0x468 + 8 * booth.val + 4 * bit hi) (writeSlots booth hi value) s)

def execEvrRouteWrite (src : Src) (group : Fin 17) (value : Word) (s : State) : Host.Outcome State Fault Refusal :=
  .next (regPort src (0x400 + 4 * group.val) (writeRoute group value) s)

def execEvrSigWrite (src : Src) (value : Word) (s : State) : Host.Outcome State Fault Refusal :=
  .next (regPort src 0x450 (writeSig value) s)

def execEvPendClear (src : Src) (group : Fin 17) (value same : Word) (s : State) : Host.Outcome State Fault Refusal :=
  .next (regPort src (0x40 + 4 * group.val) (writePend src.booth group value same) s)

def execEvMaskWrite (src : Src) (group : Fin 17) (value : Word) (s : State) : Host.Outcome State Fault Refusal :=
  .next (regPort src (0x90 + 4 * group.val) (writeMask src.booth group value) s)

def execSynClk0CfgWrite (src : Src) (value : Word) (s : State) : Host.Outcome State Fault Refusal :=
  .next (regPort src 0x500 (writeClk0 value) s)

def execSynClk1CfgWrite (src : Src) (value : Word) (s : State) : Host.Outcome State Fault Refusal :=
  .next (regPort src 0x504 (writeClk1 value) s)

def execFrdDetCfgWrite (src : Src) (value : Word) (s : State) : Host.Outcome State Fault Refusal :=
  .next (regPort src 0x600 (writeDetCfg value) s)

def execFrdFmShiftWrite (src : Src) (value : Word) (s : State) : Host.Outcome State Fault Refusal :=
  .next (regPort src 0x604 (writeFmShift value) s)

def execFrdRestart (src : Src) (value : Word) (s : State) : Host.Outcome State Fault Refusal :=
  .next (regPort src 0x614 (writeFrdCtrl value) s)

def execJugRtnCfgWrite (src : Src) (value : Word) (s : State) : Host.Outcome State Fault Refusal :=
  .next (regPort src 0x624 (writeRtnCfg value) s)

def execDoorOutCfgWrite (src : Src) (value : Word) (s : State) : Host.Outcome State Fault Refusal :=
  .next (regPort src 0x704 (writeOutCfg value) s)

/-- DOOR_OUT_CFG_LOCK: a write of `DOOR_OUT_CFG` whose LOCK bit is 1 (R234). -/
def execDoorOutCfgLock (src : Src) (value : Word) (s : State) : Host.Outcome State Fault Refusal :=
  .next (regPort src 0x704 (writeOutCfg (value ||| 0x80000000)) s)

def execDoorInCfgWrite (src : Src) (value : Word) (s : State) : Host.Outcome State Fault Refusal :=
  .next (regPort src 0x70C (writeInCfg value) s)

def execDoorTimingWrite (src : Src) (value : Word) (s : State) : Host.Outcome State Fault Refusal :=
  .next (regPort src 0x710 (writeTiming value) s)

def execDoorMotorCfgWrite (src : Src) (value : Word) (s : State) : Host.Outcome State Fault Refusal :=
  .next (regPort src 0x714 (writeMotor value) s)

def execDoorLedCfgWrite (src : Src) (value : Word) (s : State) : Host.Outcome State Fault Refusal :=
  .next (regPort src 0x71C (writeLed value) s)

/-- ERR_ACK: a write of `ERR_CTRL` (R378). -/
def execErrAck (src : Src) (value : Word) (s : State) : Host.Outcome State Fault Refusal :=
  .next (regPort src 0x748 (writeErrCtrl value) s)

/-- HOLD_EXIT: a write of `ERR_CTRL` whose HOLD_EXIT bit is 1 (R382). -/
def execHoldExit (src : Src) (value : Word) (s : State) : Host.Outcome State Fault Refusal :=
  .next (regPort src 0x748 (writeErrCtrl (value ||| 0x100)) s)

end Sys2Proof.Machine
end

