-- ==== Sys2Proof/Machine/KeepOps.lean ====
section
/-! DEFINITION. What the Keep does for the commands: random bytes (R209), writes of key slots (R197, R200), engine
operations (R193, R201, R202), spore writes (R205 to R207), and signatures of the owner (R405). -/

namespace Sys2Proof.Machine

/-! ### Random numbers -/

/-- Samples up to and with the fortieth of 40 equal ones in a row, where there is one (R209 item 2). -/
def repeatAt (last : Bool) (run n : Nat) : List Bool → Option Nat
  | [] => none
  | x :: l =>
    let k := if x = last then run + 1 else 1
    if 40 ≤ k then some (n + 1) else repeatAt x k (n + 1) l

/-- In some window of up to 1024 samples the first one recurs more than 680 times (R209 item 3): `ones` and `len` are those
of the window that begins here, the last list what follows it. -/
def recurs (ones len : Nat) : List Bool → List Bool → Bool
  | [], _ => false
  | x :: l, rest =>
    if 681 < (if x then ones else len - ones) then true
    else
      match rest with
      | [] => recurs (ones - bit x) (len - 1) l []
      | y :: r => recurs (ones - bit x + bit y) len l r

def tooUneven (l : List Bool) : Bool := recurs ((l.take 1024).count true) (min 1024 l.length) l (l.drop 1024)

/-- The health test that fails first over some samples: 2 repetition, 3 adaptive proportion (R209, Table 18-2). -/
def failedTest (l : List Bool) : Option Nat :=
  match repeatAt false 0 0 l with
  | some n => if tooUneven (l.take (n - 1)) then some 3 else some 2
  | none => if tooUneven l then some 3 else none

/-- The start-up test passes over the first 4096 samples (R209 item 1). -/
def startUpOk (l : List Bool) : Bool := decide (4096 ≤ l.length) && (failedTest (l.take 4096)).isNone

/-- `n` bytes of the DRBG, free values (log 9); it reseeds after every 4096 requests (R209). -/
def randomBytes (n : Nat) (s : State) : Bytes × State :=
  ((List.range n).map (Config.randomByte s.keep.draws),
   s.onKeep fun k =>
     if k.drbgReqs + 1 < 4096 then { k with draws := k.draws + 1, drbgReqs := k.drbgReqs + 1, drbgUsed := true }
     else { k with draws := k.draws + 1, drbgReqs := 0, drbgSeeds := k.drbgSeeds + 1, drbgUsed := true })

/-! ### Key slots -/

/-- Write a slot; its generation grows by 1 (R200). -/
def writeSlot (k : Nat) (typ : KeyType) (key : Bytes) (epoch : Half) (fromCar : Bool) (s : State) : State :=
  if h : k < 64 then
    s.onNv fun n =>
      { n with keys := n.keys.set k { typ := typ, key := key, gen := (n.keys.get ⟨k, h⟩).gen + 1, epoch := epoch
                                      fromCar := fromCar } h }
  else s

/-- The booth whose map holds a slot, 0 for none (R166, R199). -/
def slotOwner (s : State) (k : Nat) : Booth :=
  match allBooths.find? fun b => b != 0 && (s.booth b).slots.getLsbD k with
  | some b => b
  | none => 0

/-- A sender may use a slot (R166, Table 10-3). -/
def mayUse (s : State) (b : Booth) (k : Nat) : Bool := b == 0 || (s.booth b).slots.getLsbD k

/-- A sender may write slots 5 to 63 (Table 10-3); in BLANK booth 0 alone may (Table 5-3). -/
def mayWrite (s : State) (b : Booth) (k : Nat) : Bool :=
  decide (5 ≤ k) && (b == 0 || (decide (8 ≤ k) && (s.booth b).slots.getLsbD k && lifeCycle s != .blank))

/-- Slots that a sender may use as a wrapping slot for a target (R198 check 3). -/
def mayWrap (s : State) (b : Booth) (target wrap : Nat) : Bool :=
  if b = 0 then
    if target = 1 then decide (wrap = 0 ∨ wrap = 1)
    else decide (wrap = 0) || (decide (5 ≤ wrap) && (decide (wrap ≠ target) || decide (8 ≤ target)))
  else (s.booth b).slots.getLsbD wrap

/-- Slots that no key-slot command may write (R199). -/
def noCmd (k : Nat) : Bool := decide (k = 0 ∨ k = 2 ∨ k = 3 ∨ k = 4)

/-! ### Engine operations -/

/-- The result of an operation that runs to its end: status, reply payload, and the state after its writes. Life-cycle
commands and debug signatures end by rules of their own (`lifeEnd`, R102, R104). -/
def runJob (j : Job) (s : State) : Status × Bytes × State :=
  match j.op with
  | .aesCrypt k mode ctr data =>
    let key := (keySlot s k).key
    (.ok, if mode = 0 then ecbEnc key data else if mode = 1 then ecbDec key data else ctrCrypt key ctr data, s)
  | .cmac k len msg => (.ok, (cmac (keySlot s k).key msg).take len, s)
  | .derive_ i o typ ctx =>
    let key := kdf (keySlot s i).key [0x42, 0x54, 0x48, BitVec.ofNat 8 j.booth.val] ctx typ.bytes
    let s1 := writeSlot o typ key 0 false s
    (.ok, leBytes 2 (keySlot s1 o).gen.toNat, s1)
  | .load k typ w blob =>
    match keyUnwrap (keySlot s w).key blob with
    | none => (.authFail, [], s)
    | some key =>
      let s1 := writeSlot k typ key 0 false s
      (.ok, leBytes 2 (keySlot s1 k).gen.toNat, s1)
  | .random n =>
    if s.keep.rngFailing then (.rngFail, [], s)
    else
      let r := randomBytes n s
      (.ok, r.1, r.2)
  | .sha msg => (.ok, sha256 msg, s)
  | .edVerify pk sig msg => (if edVerify pk sig msg then .ok else .authFail, [], s)
  | .edSign k msg => (.ok, edSign (keySlot s k).key msg, s)
  | .provision => (.ok, [], s)
  | .lifeMove _ _ => (.ok, [], s)
  | .dbgSig _ _ => (.ok, [], s)

/-- A slot of the snapshots has been written since (R201). -/
def stale (s : State) (snap : List (Nat × Half)) : Bool := snap.any fun x => (keySlot s x.1).gen != x.2

/-- An engine is free and takes its next operation (R193). -/
def freeEngine (e : EngineId) (s : State) : State :=
  match e with
  | .aes => aesNext (s.onKeep fun k => { k with aes := { k.aes with cur := none } })
  | .hash => hashNext (s.onKeep fun k => { k with hash := { k.hash with cur := none } })

/-- What an engine runs. -/
def engineCur (s : State) : EngineId → Option Running
  | .aes => s.keep.aes.cur
  | .hash => s.keep.hash.cur

/-- End an engine's command with a status and no output. -/
def endJob (e : EngineId) (j : Job) (st : Status) (s : State) : State := freeEngine e (replyTo j.booth j.tag st [] s)

/-- A slot has been erased: operations that read it are aborted (R201 case 2). -/
def abortOn (e : EngineId) (k : Nat) (s : State) : State :=
  match engineCur s e with
  | some (.cmd j snap none) => if snap.any (·.1 = k) then endJob e j .keyEmpty s else s
  | _ => s

/-- Empty a slot (R199, R201). -/
def eraseSlot (k : Nat) (s : State) : State :=
  abortOn .hash k (abortOn .aes k (writeSlot k .empty [] 0 false s))

/-- Zeroise the slots below a number; each is written, so its generation grows (R103, R200). -/
def zeroise : Nat → State → State
  | 0, s => s
  | k + 1, s => zeroise k (eraseSlot k s)

/-- Zeroise the slots below a number that are not zero (R103). -/
def zeroiseRest : Nat → State → State
  | 0, s => s
  | k + 1, s => zeroiseRest k (if (keySlot s k).typ = .empty then s else eraseSlot k s)

/-! ### Spore cells -/

/-- A cell whose last unit is used, or that is spent (R206, R100). -/
def spentEvent (c : Nat) : Ev := if c = 6 then .floorSpent else .sporeSpent

/-- Write a cell's new value, using one unit of its budget, with its log entry and events; a policy cell may make the log full
(R205, R206, R368). -/
def sporeCommit (c : Nat) (value : Bytes) (source : Byte) (s : State) : State :=
  let left := cellLeft s c - 1
  let s1 := raise .sporeWritten (sporePut { cell := c, value := value, left := left } s)
  let s2 := raiseIf (logFull s1 && !logFull s) .logFull (raiseIf (decide (left = 0)) (spentEvent c) s1)
  logMake 0x0B source 0 [BitVec.ofNat 8 c, BitVec.ofNat 8 left] s2

/-- A step cell rises by one (R205, R208). -/
def sporeStep (c : Nat) (source : Byte) (s : State) : State :=
  sporeCommit c [BitVec.ofNat 8 (cellNat s c + 1)] source s

/-- Life-cycle states in which a command may write a cell; none where no command may (R207, Table 10-4). -/
def cmdStates (c : Nat) : Option (List LifeCycle) :=
  if 1 ≤ c ∧ c ≤ 3 then some [.blank]
  else if c = 4 ∨ c = 5 ∨ (8 ≤ c ∧ c ≤ 10) then some [.blank, .provisioned]
  else if c = 7 ∨ (16 ≤ c ∧ c ≤ 95) then some [.blank, .provisioned, .field]
  else none

/-- A value of Table 10-4 for a cell. -/
def valueOk (c : Nat) (v : Bytes) : Bool :=
  let n := ofLe v
  if c = 1 then decide (1 ≤ n ∧ n ≤ 0xFFFFFFFE)
  else if c = 4 ∨ c = 5 then decide (1 ≤ n ∧ n ≤ 0xFFFE)
  else if c = 7 then decide (n / 64 % 4 = 0)
  else if c = 8 then decide (n < 32)
  else if c = 9 ∨ c = 10 then decide (n ≤ 1)
  else true

/-! ### The owner's signature -/

/-- The hash the owner key must have: `SP_OWNER_KEY_HASH`. -/
def ownerHash (s : State) : Bytes := cellValue s 2

/-- The owner public key the Keep holds, when it matches (R405). -/
def ownerKey (s : State) : Option Bytes :=
  match s.boot.ownerKey with
  | some k => if sha256 k = ownerHash s then some k else none
  | none => none

/-- An owner signature over a message verifies (R405, R194). -/
def ownerVerifies (s : State) (sig msg : Bytes) : Bool :=
  match ownerKey s with
  | some k => edVerify k sig msg
  | none => false

/-- The signature answers the nonce (R104, R405). -/
def nonceSigned (nonce : Option Bytes) (sig : Bytes) (s : State) : Bool :=
  match nonce with
  | some n => ownerVerifies s sig (n ++ idBytes)
  | none => false

/-- A debug signature has been checked: the port opens, or it counts as invalid (R104). -/
def dbgChecked (nonce : Option Bytes) (sig : Bytes) (s : State) : State :=
  if s.boot.dbg ≠ .challenge then s
  else if nonceSigned nonce sig s then s.onBoot fun b => { b with dbg := .unlocked }
  else
    raise .dbgDenied (s.onBoot fun b =>
      { b with dbgBad := b.dbgBad + 1, dbg := if 3 ≤ b.dbgBad + 1 then .closed else b.dbg })

/-- The owner signature of a life-cycle transition: `ID_UNIQUE` and the target state code (R405). -/
def lifeSigOk (s : State) (target : LifeCycle) (sig : Bytes) : Bool :=
  ownerVerifies s sig (idBytes ++ [BitVec.ofNat 8 target.code])

end Sys2Proof.Machine
end

