-- ==== Sys2Proof/Machine/Keys.lean ====
section
/-! DEFINITION. The Keep's command packets: key slots, cryptography, spore cells, random numbers (chapter 10, Table 7-2),
and the ends of its engine operations. -/

namespace Sys2Proof.Machine

/-! ### Key slots -/

/-- The flags byte of `KEY_INFO` (R199). -/
def keyFlags (k : Nat) (x : KeySlot) : Nat := bit (decide (k = 0)) + 2 * bit x.fromCar + 4 * bit (noCmd k)

/-- KEY_INFO: booths 1 to 7 read their own slots (Table 7-1, R199). -/
def keyInfoBody (p : Packet) (s : State) : State :=
  let k := (byteAt p.payload 0).toNat
  if 64 ≤ k then answer p .badParam [] s
  else if !mayUse s p.src.booth k then answer p .priv [] s
  else
    let x := keySlot s k
    answer p .ok
      ([x.typ.code, BitVec.ofNat 8 (slotOwner s k).val] ++ leBytes 2 x.gen.toNat
        ++ [BitVec.ofNat 8 (keyFlags k x)] ++ zeros 3) s

/-- The command's engine operation is queued; its reply comes when the operation ends (R193). -/
def startAes (p : Packet) (op : JobOp) (s : State) : State :=
  enqueueAes { booth := p.src.booth, tag := p.tag, op := op } s
def startHash (p : Packet) (op : JobOp) (s : State) : State :=
  enqueueHash { booth := p.src.booth, tag := p.tag, op := op } s

/-- A sender may load a slot (Table 10-3, R166). -/
def mayLoad (s : State) (b : Booth) (k : Nat) : Bool := (b == 0 && decide (k = 1)) || mayWrite s b k

/-- A type the slot takes, and a wrapped length that fits it (Table 10-3, R196). -/
def loadFits (k len : Nat) (t : Option KeyType) : Option KeyType :=
  match t with
  | some ty => if (k = 1 → ty = .wrap256) ∧ len = ty.bytes + 8 then some ty else none
  | none => none

/-- KEY_LOAD (R197, R198); checks 4 to 6 fall to the operation on the engine. -/
def keyLoadBody (p : Packet) (s : State) : State :=
  let k := (byteAt p.payload 0).toNat
  let w := (byteAt p.payload 2).toNat
  let blob := p.payload.drop 4
  if lifeCycle s = .retired then answer p .lifecycle [] s
  else if 64 ≤ k ∨ 64 ≤ w ∨ byteAt p.payload 3 ≠ 0 then answer p .badParam [] s
  else if !mayLoad s p.src.booth k then answer p .priv [] s
  else
    match loadFits k blob.length (loadableType (byteAt p.payload 1)) with
    | none => answer p .badParam [] s
    | some ty =>
      if !mayWrap s p.src.booth k w then answer p .priv [] s else startAes p (.load k ty w blob) s

/-- KEY_ERASE (R197, R199). -/
def keyEraseBody (p : Packet) (s : State) : State :=
  let k := (byteAt p.payload 0).toNat
  if lifeCycle s = .retired then answer p .lifecycle [] s
  else if 64 ≤ k then answer p .badParam [] s
  else if !mayWrite s p.src.booth k then answer p .priv [] s
  else
    let s1 := eraseSlot k s
    answer p .ok (leBytes 2 (keySlot s1 k).gen.toNat) s1

/-- KEY_DERIVE (R197, R199); checks 3 and 4 fall to the operation on the engine. -/
def keyDeriveBody (p : Packet) (s : State) : State :=
  let i := (byteAt p.payload 0).toNat
  let o := (byteAt p.payload 1).toNat
  if lifeCycle s = .retired then answer p .lifecycle [] s
  else if 64 ≤ i ∨ 64 ≤ o ∨ byteAt p.payload 3 ≠ 0 then answer p .badParam [] s
  else
    match loadableType (byteAt p.payload 2) with
    | none => answer p .badParam [] s
    | some ty =>
      if i = o then answer p .badParam [] s
      else if !mayUse s p.src.booth i || !mayWrite s p.src.booth o then answer p .priv [] s
      else startAes p (.derive_ i o ty (p.payload.drop 4)) s

/-! ### Cryptography -/

/-- AES_CRYPT (R147). -/
def aesCryptBody (p : Packet) (s : State) : State :=
  let k := (byteAt p.payload 0).toNat
  let mode := (byteAt p.payload 1).toNat
  if 64 ≤ k ∨ 3 ≤ mode ∨ byteAt p.payload 2 ≠ 0 ∨ byteAt p.payload 3 ≠ 0 then answer p .badParam [] s
  else if !mayUse s p.src.booth k then answer p .priv [] s
  else startAes p (.aesCrypt k mode (sub p.payload 4 16) (p.payload.drop 20)) s

/-- CMAC_GEN (Table 7-2). -/
def cmacBody (p : Packet) (s : State) : State :=
  let k := (byteAt p.payload 0).toNat
  let len := (byteAt p.payload 1).toNat
  if 64 ≤ k ∨ (len ≠ 8 ∧ len ≠ 16) ∨ byteAt p.payload 2 ≠ 0 ∨ byteAt p.payload 3 ≠ 0 then answer p .badParam [] s
  else if !mayUse s p.src.booth k then answer p .priv [] s
  else startAes p (.cmac k len (p.payload.drop 4)) s

/-- ED_SIGN: slot 4 is answered `ST_KEY_TYPE` (R199). -/
def edSignBody (p : Packet) (s : State) : State :=
  let k := (byteAt p.payload 0).toNat
  if 64 ≤ k ∨ byteAt p.payload 1 ≠ 0 ∨ byteAt p.payload 2 ≠ 0 ∨ byteAt p.payload 3 ≠ 0 then answer p .badParam [] s
  else if !mayUse s p.src.booth k then answer p .priv [] s
  else if k = 4 then answer p .keyType [] s
  else startHash p (.edSign k (p.payload.drop 4)) s

/-- RANDOM (R210, Table 7-2). -/
def randomBody (p : Packet) (s : State) : State :=
  let n := leField p.payload 0 2
  if n = 0 ∨ 1024 < n then answer p .badParam [] s
  else if s.keep.rngFailing then answer p .rngFail [] s
  else startAes p (.random n) s

/-- AUDIT_PUB (R199). -/
def auditPubBody (p : Packet) (s : State) : State :=
  if (keySlot s 4).typ = .empty then answer p .keyEmpty [] s else answer p .ok (edPublic (keySlot s 4).key) s

/-! ### Spore cells -/

/-- SPORE_READ (R208). -/
def sporeReadBody (p : Packet) (s : State) : State :=
  let c := (byteAt p.payload 0).toNat
  if 128 ≤ c then answer p .badParam [] s
  else if p.src.booth ≠ 0 ∧ 32 ≤ c ∧ c ≤ 95 then answer p .priv [] s
  else
    let kind : Byte := match cellKind c with | .reserved => 0 | .step _ => 2 | .budgeted _ _ => 1
    let v := cellValue s c
    answer p .ok ([kind, BitVec.ofNat 8 (cellLeft s c), BitVec.ofNat 8 v.length, 0] ++ v) s

/-- A spent cell is met (R206). -/
def answerSpent (p : Packet) (c : Nat) (s : State) : State := answer p .sporeSpent [] (raise (spentEvent c) s)

/-- SPORE_WRITE (R205 to R208). -/
def sporeWriteBody (p : Packet) (s : State) : State :=
  let c := (byteAt p.payload 0).toNat
  let v := p.payload.drop 4
  if sub p.payload 1 3 ≠ zeros 3 then answer p .badParam [] s
  else
    match cellKind c, cmdStates c with
    | .budgeted len _, some states =>
      if !states.contains (lifeCycle s) then answer p .lifecycle [] s
      else if v.length ≠ len then answer p .badParam [] s
      else if v = cellValue s c then answer p .ok [BitVec.ofNat 8 (cellLeft s c)] s
      else if valueOk c v = false then answer p .badParam [] s
      else if cellLeft s c = 0 then answerSpent p c s
      else
        let s1 := sporeCommit c v (srcBooth p.src.booth) s
        answer p .ok [BitVec.ofNat 8 (cellLeft s1 c)] s1
    | _, _ => answer p .badParam [] s

/-- SPORE_STEP (R205 to R208). -/
def sporeStepBody (p : Packet) (s : State) : State :=
  let c := (byteAt p.payload 0).toNat
  match cellKind c, cmdStates c with
  | .step _, some states =>
    if !states.contains (lifeCycle s) then answer p .lifecycle [] s
    else if cellLeft s c = 0 then answerSpent p c s
    else
      let s1 := sporeStep c (srcBooth p.src.booth) s
      answer p .ok (cellValue s1 c) s1
  | _, _ => answer p .badParam [] s

/-! ### Engine events -/

/-- A held snapshot reaches 10 ms: only while `LIMIT` is 1 (R202). -/
def snapshotTimeout (e : EngineId) (s : State) : State :=
  match engineCur s e with
  | some (.cmd j snap none) => if s.pwr.limit && !snap.isEmpty then endJob e j .keyStale s else s
  | _ => s

/-- A health test fails (R210): the record names the test. -/
def rngFails (test : Nat) (s : State) : State :=
  if s.keep.rngFailing then s
  else raise .rngFail (writeErr 0x002 (BitVec.ofNat 32 test) 0 (s.onKeep fun k => { k with rngFailing := true }))

/-- A repeat of the start-up test passes: the DRBG is instantiated afresh (R210). -/
def rngReturns (s : State) : State :=
  if s.keep.rngFailing then
    raise .rngOk (s.onKeep fun k =>
      { k with rngFailing := false, drbgSeeds := k.drbgSeeds + 1, drbgReqs := 0, drbgUsed := false })
  else s


/-! ### Commands -/

def execKeyInfo (p : Packet) (s : State) : Host.Outcome State Fault Refusal :=
  .next (simpleCommand op_keyInfo p (keyInfoBody p) s)
def execKeyLoad (p : Packet) (s : State) : Host.Outcome State Fault Refusal :=
  .next (simpleCommand op_keyLoad p (keyLoadBody p) s)
def execKeyErase (p : Packet) (s : State) : Host.Outcome State Fault Refusal :=
  .next (simpleCommand op_keyErase p (keyEraseBody p) s)
def execAesCrypt (p : Packet) (s : State) : Host.Outcome State Fault Refusal :=
  .next (simpleCommand op_aesCrypt p (aesCryptBody p) s)
def execCmacGen (p : Packet) (s : State) : Host.Outcome State Fault Refusal :=
  .next (simpleCommand op_cmacGen p (cmacBody p) s)
def execSha256 (p : Packet) (s : State) : Host.Outcome State Fault Refusal :=
  .next (simpleCommand op_sha256 p (startHash p (.sha p.payload)) s)
def execEdVerify (p : Packet) (s : State) : Host.Outcome State Fault Refusal :=
  .next (simpleCommand op_edVerify p
    (startHash p (.edVerify (sub p.payload 0 32) (sub p.payload 32 64) (p.payload.drop 96))) s)
def execEdSign (p : Packet) (s : State) : Host.Outcome State Fault Refusal :=
  .next (simpleCommand op_edSign p (edSignBody p) s)
def execKeyDerive (p : Packet) (s : State) : Host.Outcome State Fault Refusal :=
  .next (simpleCommand op_keyDerive p (keyDeriveBody p) s)
def execRandom (p : Packet) (s : State) : Host.Outcome State Fault Refusal :=
  .next (simpleCommand op_random p (randomBody p) s)
def execAuditPub (p : Packet) (s : State) : Host.Outcome State Fault Refusal :=
  .next (simpleCommand op_auditPub p (auditPubBody p) s)
def execSporeRead (p : Packet) (s : State) : Host.Outcome State Fault Refusal :=
  .next (simpleCommand op_sporeRead p (sporeReadBody p) s)
def execSporeWrite (p : Packet) (s : State) : Host.Outcome State Fault Refusal :=
  .next (simpleCommand op_sporeWrite p (sporeWriteBody p) s)
def execSporeStep (p : Packet) (s : State) : Host.Outcome State Fault Refusal :=
  .next (simpleCommand op_sporeStep p (sporeStepBody p) s)

/-- SNAPSHOT_TIMEOUT (R202). -/
def execSnapshotTimeout (e : EngineId) (s : State) : Host.Outcome State Fault Refusal := .next (snapshotTimeout e s)
/-- RNG_FAIL: the samples on which a health test fails, if one does (R209, R210). -/
def execRngFail (samples : List Bool) (s : State) : Host.Outcome State Fault Refusal :=
  .next (match failedTest samples with
    | some k => if alive s || s.phase == .booting then rngFails k s else s
    | none => s)
/-- RNG_RETEST: the start-up test over 4096 fresh samples (R210). -/
def execRngRetest (samples : List Bool) (s : State) : Host.Outcome State Fault Refusal :=
  .next (if (alive s || s.phase == .booting) && startUpOk samples then rngReturns s else s)

end Sys2Proof.Machine
end

