-- ==== Sys2Proof/Machine/Command.lean ====
section
/-! DEFINITION. Malformed packets (R141), identification, GP pins (R146), booth tables and stores (R181 to R190), and
booth control that needs no other block (R175, Table 7-2). -/

namespace Sys2Proof.Machine

/-! ### Packets -/

def malformedCause : Malformed → Byte
  | .length _ => 0x01 | .crc => 0x02 | .early => 0x03 | .tagReuse _ => 0x04

/-- The malformed packet is one of the cases of R141. -/
def malformedNow (s : State) (b : Booth) : Malformed → Bool
  | .length len => decide (1024 < len.toNat)
  | .tagReuse t => tagOut s b t
  | _ => true

/-- A malformed packet arrives at the command port (R37, R141). -/
def badPacket (src : Src) (m : Malformed) (s : State) : State :=
  let f := busFront src true s
  if !f.2 then f.1
  else
    let s1 := setSel src .command f.1
    if refusalWaiting s1 src.booth then setAck false s1
    else if malformedNow s1 src.booth m then setAck (malformedCause m == 0x03) (malformed src.booth (malformedCause m) s1)
    else s1

/-- A packet whose opcode Table 7-2 does not list (R142 step 1; in the loader state, R93). -/
def unlistedOp (op : Byte) (p : Packet) (s : State) : State :=
  withPacket op p (fun s => answer p (if s.boot.loader then .notReady else .badOpcode) [] s) s

/-- GET_INFO (Table 7-2). -/
def infoBody (p : Packet) (s : State) : State :=
  let b := p.src.booth
  let d := (s.booth b).depth
  answer p .ok
    (idBytes ++ leBytes 4 s.boot.version.toNat
      ++ [BitVec.ofNat 8 b.val, BitVec.ofNat 8 d, BitVec.ofNat 8 (d - depthCount s b), 0]) s

/-- DEV_RESET: the reset follows the reply (Table 7-2). -/
def devResetBody (p : Packet) (s : State) : State :=
  (done p s).onBoot fun b => { b with devReset := some (p.src.booth, p.tag) }

/-! ### GP pins -/

/-- A GP pin number. -/
def gpPin (b : Byte) : Option (Fin 4) := if h : b.toNat < 4 then some ⟨b.toNat, h⟩ else none

/-- GP_ASSIGN (R52, R146). -/
def gpAssignBody (p : Packet) (s : State) : State :=
  let b := (byteAt p.payload 1).toNat
  let d := (byteAt p.payload 2).toNat
  match gpPin (byteAt p.payload 0) with
  | none => answer p .badParam [] s
  | some n =>
    if 8 ≤ b ∨ 2 ≤ d ∨ byteAt p.payload 3 ≠ 0 then answer p .badParam [] s
    else if tcxoPin s = some n then answer p .inUse [0] s
    else if d = 1 ∧ s.door.rest.get (gpIdx n) = .float then answer p .restFloat [] s
    else
      done p ((letGo (gpIdx n) s).onDoor fun x =>
        { x with gp := x.gp.set n { booth := some (Fin.ofNat 8 b), out := decide (d = 1) } })

/-- GP_WRITE (R146). -/
def gpWriteBody (p : Packet) (s : State) : State :=
  let v := byteAt p.payload 1
  match gpPin (byteAt p.payload 0) with
  | none => answer p .badParam [] s
  | some n =>
    if 1 < v.toNat then answer p .badParam [] s
    else if tcxoPin s = some n then
      (if p.src.booth = 0 then answer p .inUse [0] s else answer p .priv [] s)
    else
      let g := s.door.gp.get n
      if p.src.booth ≠ 0 ∧ g.booth ≠ some p.src.booth then answer p .priv [] s
      else if g.booth = none ∨ g.out = false then answer p .badParam [] s
      else done p (setPin (gpIdx n) (if v = 1 then .active else .rest) s)

/-- GP_READ: the board's levels at this moment are an operand (log 17). -/
def gpReadBody (p : Packet) (ext : BitVec 4) (s : State) : State :=
  let s1 := s.onDoor fun d => { d with gpExt := ext }
  answer p .ok [BitVec.ofNat 8 (gpLevels s1)] s1

/-! ### Stores -/

/-- End a store command on a walk fault (R186). -/
def storeFault (p : Packet) (va page kind level : Nat) (s : State) : State :=
  let v := faultVa va page
  answer p (walkStatus kind) (leBytes 4 v) (walkFault p.src.booth v kind level s)

/-- End a store command on an uncorrectable data word (R189, R383). -/
def storeEcc (p : Packet) (v a : Nat) (s : State) : State :=
  answer p .walkEcc (leBytes 4 (failVa v a)) (boothEcc p.src.booth .phys a s)

/-- STORE_READ (R184 to R190). -/
def storeReadBody (p : Packet) (ecc : List EccHit) (s0 : State) : State :=
  let va := leField p.payload 0 4
  let n := leField p.payload 4 2
  if 0x100000 ≤ va ∨ n = 0 ∨ 1024 < n ∨ 0x100000 < va + n then answer p .badParam [] s0
  else
    let s := applyHits ecc s0
    match walk s p.src.booth false va n with
    | .fault page k l => storeFault p va page k l s
    | .ok pages =>
      let rs := runsOf pages va n
      match badIn s rs with
      | some (v, a) => storeEcc p v a s
      | none => answer p .ok (readRuns s.mem rs) s

/-- STORE_WRITE (R184 to R190). `cut` is the number of words after which a reset or power loss ends it: no reply is placed
and the command stays in flight until the row of that reset (log 55). -/
def storeWriteBody (p : Packet) (ecc : List EccHit) (cut : Option Nat) (s0 : State) : State :=
  let va := leField p.payload 0 4
  let data := p.payload.drop 4
  if 0x100000 ≤ va ∨ 0x100000 < va + data.length then answer p .badParam [] s0
  else
    let s := applyHits ecc s0
    match walk s p.src.booth true va data.length with
    | .fault page k l => storeFault p va page k l s
    | .ok pages =>
      let rs := runsOf pages va data.length
      match badIn s (endsOf true rs) with
      | some (v, a) => storeEcc p v a s
      | none =>
        match cut with
        | some n => writeRuns (cutRuns n rs) data s
        | none => done p (writeRuns rs data s)

/-! ### Booth tables -/

/-- A level-1 entry as `TABLE_SET` reads it: its table's address while it is valid (R181). -/
def l1Target (s : State) (a : Nat) : Option Nat :=
  if isBad s .phys a ∨ entryAt s a % 2 = 0 then none else some (entryTarget 0 (entryAt s a))

/-- Addresses of the 128 level-1 entries. -/
def l1Addrs : List Nat := (List.range 128).map fun i => tableBase + 8 * i

def inPool (a : Nat) : Bool := decide (poolBase ≤ a ∧ a < tableEnd)

/-- An entry with its parity bit (R180). -/
def withPar (e : Nat) : Nat := e + popCount 63 e % 2 * 2 ^ 63

/-- Write one 64-bit word of the table region. -/
def putEntry (a e : Nat) (s : State) : State :=
  repair .phys a 8 { s with mem := memWrite s.mem a (leBytes 8 e) }

/-- Write 16 entries as invalid. -/
def clearTable (a : Nat) (s : State) : State :=
  repair .phys a 128 { s with mem := memWrite s.mem a (zeros 128) }

/-- Reserved bits and `PAR` are 0 (R181 case 2). -/
def entryClean (level e : Nat) : Bool := Nat.land e (reservedBits level) == 0 && decide (e < 2 ^ 63)

/-- Level-1 `TABLE_SET` (R181 cases 2 and 4, R182). -/
def setL1 (p : Packet) (a e : Nat) (s : State) : State :=
  let t := entryTarget 0 e
  let others := (l1Addrs.filter (· ≠ a)).map (l1Target s)
  if !entryClean 0 e then answer p .badParam [] s
  else if e % 2 = 0 then done p (putEntry a (withPar e) s)
  else if !inPool t || others.contains (some t) then answer p .badParam [] s
  else done p (putEntry a (withPar e) (if l1Target s a = some t then s else clearTable t s))

/-- Level-2 `TABLE_SET` (R181 cases 2 and 3). -/
def setL2 (p : Packet) (b : Booth) (page e : Nat) (s : State) : State :=
  if !entryClean 1 e then answer p .badParam [] s
  else
    match l1Target s (l1Addr b page) with
    | none => answer p .badParam [] s
    | some t => if inPool t then done p (putEntry (t + page % 16 * 8) (withPar e) s) else answer p .badParam [] s

/-- TABLE_SET (R181 to R183). -/
def tableSetBody (p : Packet) (s : State) : State :=
  let b := (byteAt p.payload 0).toNat
  let level := (byteAt p.payload 1).toNat
  let i := leField p.payload 2 2
  let e := leField p.payload 4 8
  if 8 ≤ b ∨ (level ≠ 1 ∧ level ≠ 2) ∨ (level = 1 ∧ 16 ≤ i) ∨ (level = 2 ∧ 256 ≤ i) then answer p .badParam [] s
  else
    let booth : Booth := Fin.ofNat 8 b
    if (s.booth booth).mode = .draining then answer p .notReady [] s
    else if level = 1 then setL1 p (tableBase + b * 0x80 + 8 * i) e s
    else setL2 p booth i e s

/-! ### Booths -/

/-- BOOTH_STATUS (Table 7-2). -/
def boothStatusBody (p : Packet) (s : State) : State :=
  let b := p.src.booth
  let x := s.booth b
  answer p .ok
    ([BitVec.ofNat 8 x.mode.code, BitVec.ofNat 8 x.depth, BitVec.ofNat 8 (inFlight s b)
      , BitVec.ofNat 8 x.replies.length] ++ leBytes 2 x.malCount ++ [x.malCause, 0]) s

/-- BOOTH_ENABLE (R153, R175). -/
def boothEnableBody (p : Packet) (s : State) : State :=
  let n := (byteAt p.payload 0).toNat
  let d := (byteAt p.payload 1).toNat
  if n = 0 ∨ 8 ≤ n ∨ d = 0 ∨ 8 < d then answer p .badParam [] s
  else
    let b : Booth := Fin.ofNat 8 n
    match (s.booth b).mode with
    | .draining => answer p .notReady [] s
    | .enabled =>
      if d < depthCount s b then answer p .badParam [] s else done p (s.onBooth b fun x => { x with depth := d })
    | .disabled => done p (s.onBooth b fun x => { x with mode := .enabled, depth := d })

/-! ### Commands -/

/-- NOP, and every opcode Table 7-2 does not list (R144). -/
def execNop (op : NopOp) (p : Packet) (s : State) : Host.Outcome State Fault Refusal :=
  match op with
  | .nop => .next (simpleCommand op_nop p (done p) s)
  | .unlisted b => .next (unlistedOp b p s)

def execCmdMalformed (src : Src) (m : Malformed) (s : State) : Host.Outcome State Fault Refusal :=
  .next (badPacket src m s)
def execGetInfo (p : Packet) (s : State) : Host.Outcome State Fault Refusal :=
  .next (simpleCommand op_getInfo p (infoBody p) s)
def execDevReset (p : Packet) (s : State) : Host.Outcome State Fault Refusal :=
  .next (simpleCommand op_devReset p (devResetBody p) s)
def execGpAssign (p : Packet) (s : State) : Host.Outcome State Fault Refusal :=
  .next (simpleCommand op_gpAssign p (gpAssignBody p) s)
def execGpWrite (p : Packet) (s : State) : Host.Outcome State Fault Refusal :=
  .next (simpleCommand op_gpWrite p (gpWriteBody p) s)
def execGpRead (p : Packet) (ext : BitVec 4) (s : State) : Host.Outcome State Fault Refusal :=
  .next (simpleCommand op_gpRead p (gpReadBody p ext) s)
def execStoreRead (p : Packet) (ecc : List EccHit) (s : State) : Host.Outcome State Fault Refusal :=
  .next (simpleCommand op_storeRead p (storeReadBody p ecc) s)
def execStoreWrite (p : Packet) (ecc : List EccHit) (cut : Option Nat) (s : State) : Host.Outcome State Fault Refusal :=
  .next (simpleCommand op_storeWrite p (storeWriteBody p ecc cut) s)
def execTableSet (p : Packet) (s : State) : Host.Outcome State Fault Refusal :=
  .next (simpleCommand op_tableSet p (tableSetBody p) s)
def execBoothStatus (p : Packet) (s : State) : Host.Outcome State Fault Refusal :=
  .next (simpleCommand op_boothStatus p (boothStatusBody p) s)
def execBoothEnable (p : Packet) (s : State) : Host.Outcome State Fault Refusal :=
  .next (simpleCommand op_boothEnable p (boothEnableBody p) s)

end Sys2Proof.Machine
end

