-- ==== Sys2Proof/Machine/DoorRows.lean ====
section
/-! DEFINITION. The door: movements and their ends, faults, inputs, exit and privacy, the owner's latch commands
(R56, R59, R227 to R233). -/

namespace Sys2Proof.Machine

/-- A movement runs: opening or closing, outside the dead time. -/
def moving (s : State) : Bool :=
  (s.door.latch == .opening || s.door.latch == .closing) && s.door.dead.isNone && s.phase == .running

/-- Stall sensing is on for the sequence (R229). -/
def stallOn (s : State) : Bool := decide (bits s.door.seqMotor 0 12 ≠ 0)

/-- Two stall samples end the movement (R229). -/
def motorStall (mv : Half) (s : State) : State :=
  if moving s && stallOn s then movementEnd (sampleLoad mv s) else s

/-- A movement reaches `MOTOR_MS` (R229, R230). -/
def motorTimeout (mv : Half) (s : State) : State :=
  if moving s then (if stallOn s then latchFault 1 (sampleLoad mv s) else movementEnd (sampleLoad mv s)) else s

/-- A driven door output reads back wrong (R230); `mv` is the lowest VIN sampled in the movement so far (R69). -/
def driveFault (i : Fin 7) (mv : Option Half) (s : State) : State :=
  if decide (i.val < 3) && (s.door.pins.get i).driven && s.phase == .running then
    latchFault 2 (match mv with | some v => if moving s then sampleLoad v s else s | none => s)
  else s

/-- The one retry of a closing movement (R230). -/
def closeRetry (s : State) : State :=
  if s.door.retryWait && s.door.latch == .fault && mayMove s then
    driveClose (s.onDoor fun d => { d with retryWait := false, retried := true })
  else s

/-- The dwell ends (R227); a hold has no end of its own (R231). -/
def dwellEnd (s : State) : State :=
  if s.door.latch == .dwell && s.door.dead.isNone && mayMove s then afterDwell s else s

/-- The dead time of R228 ends. -/
def deadTimeEnd (s : State) : State :=
  if !mayMove s then s
  else
    match s.door.dead with
    | none => s
    | some .open_ => beginSequence (s.onDoor fun d => { d with dead := none })
    | some .close => driveClose (s.onDoor fun d => { d with dead := none })

/-- The 20 µs at rest of a let-go end (R56). -/
def letGoEnd (i : Fin 7) (s : State) : State :=
  if s.door.pins.get i = .letGo then s.onDoor fun d => { d with pins := d.pins.set i .z } else s

/-! ### Inputs -/

/-- An entry of kind DOOR (Table 17-3). -/
def logDoor (code : Byte) (s : State) : State := logMake 0x05 srcDevice 0 [code] s

/-- HANDLE_IN is or was asserted in the preceding 2 s (R232). -/
def handleRecent (s : State) : Bool :=
  s.door.handle || (match s.door.handleTick with | some t => decide (s.ao.rtc ≤ t + 2 * 32768) | none => false)

/-- The door opens: forced while the latch is in state 0 or 6 and no handle was used (R232); privacy is cleared (R233). -/
def doorOpens (s : State) : State :=
  let forced := (s.door.latch == .idle || s.door.latch == .fault) && restOk s && !handleRecent s
  let s1 := raiseIf forced .doorForced (raise .doorOpen (s.onDoor fun d => { d with open_ := true }))
  setPrivacy false (logDoor (if forced then 3 else 1) s1)

/-- The door closes: a lock that waits for it closes (R227, R232). -/
def doorCloses (s : State) : State :=
  let s1 := logDoor 2 (raise .doorClosed (s.onDoor fun d => { d with open_ := false }))
  if s1.door.latch == .waiting && s1.door.dead.isNone && mayMove s1 then driveClose s1 else s1

/-- HANDLE_IN asserts: logged, and an exit sequence (R232, R233). -/
def handleAsserts (s : State) : State :=
  let s1 := logDoor 4 (raise .handle (s.onDoor fun d => { d with handle := true, handleTick := some s.ao.rtc }))
  openDoor false none false (logMake 0x02 srcDevice 0 [BitVec.ofNat 8 (latchCode s1)] s1)

/-- HANDLE_IN deasserts (R232). -/
def handleReleases (s : State) : State :=
  logDoor 4 (raise .handle (s.onDoor fun d => { d with handle := false, handleTick := some s.ao.rtc }))

/-! ### Owner latch commands -/

/-- Action 2: end a dwell or hold, close or return to idle, clear latch state 6 and privacy (R231). -/
def latchIdle (s : State) : State :=
  let s1 := s.onDoor fun d => { d with holdOpen := false }
  let s2 :=
    if !mayMove s1 then s1
    else
      match s1.door.latch with
      | .dwell => if s1.door.motorLock then driveClose s1 else endSequence s1
      | .held => if s1.door.motorLock then driveClose s1 else endSequence s1
      | .opening => if s1.door.dead.isSome then s1.onDoor fun d => { d with dead := some .close } else beginDead .close s1
      | .waiting => if s1.door.dead.isSome then s1.onDoor fun d => { d with dead := some .close } else s1
      | .closing => if s1.door.dead.isSome then s1.onDoor fun d => { d with dead := some .close } else s1
      | .idle => s1
      | .fault => s1
  let s3 := s2.onDoor fun d =>
    { d with latch := if d.latch = .fault then .idle else d.latch, retryWait := false, driveHold := false }
  setPrivacy false (settleOutputs s3)

/-- One action of `LATCH_CMD` or of a REMOTE car, with its log entry (R231, Table 15-5). -/
def latchAction (action ms : Nat) (source : Byte) (s : State) : State :=
  let s1 := logMake 0x03 source 0 ([BitVec.ofNat 8 action] ++ leBytes 2 (if action = 0 then ms else 0)) s
  if action = 0 then openDoor false (some ms) false s1
  else if action = 1 then openDoor false none true s1
  else latchIdle s1

/-- A legal action and time of `LATCH_CMD` (Table 7-2). -/
def latchParams (action ms : Nat) : Bool := decide (action ≤ 2) && (decide (action ≠ 0) || decide (1 ≤ ms))

/-- LATCH_CMD (R231). -/
def latchCmdBody (p : Packet) (s : State) : State :=
  let action := (byteAt p.payload 0).toNat
  let ms := leField p.payload 2 2
  if !latchParams action ms || byteAt p.payload 1 != 0 then answer p .badParam [] s
  else if !restOk s then answer p .restFloat [] s
  else done p (latchAction action ms (srcBooth p.src.booth) s)

/-- DOOR_STATUS (R231); before any verdict its verdict fields are free values (log 14). -/
def doorStatusBody (p : Packet) (s : State) : State :=
  let code := match s.vd.last with | some (c, _) => c | none => Config.noVerdictCode s.free
  let seq := match s.vd.last with | some (_, n) => n | none => (Config.noVerdictSeq s.free).toNat
  answer p .ok
    ([BitVec.ofNat 8 (inLevels s), BitVec.ofNat 8 (outLevels s), code
      , BitVec.ofNat 8 (latchCode s + 128 * bit s.door.privacy)] ++ leBytes 5 seq ++ zeros 3) s.draw

/-! ### Commands -/

def execDoorStatus (p : Packet) (s : State) : Host.Outcome State Fault Refusal :=
  .next (simpleCommand op_doorStatus p (doorStatusBody p) s)
def execLatchCmd (p : Packet) (s : State) : Host.Outcome State Fault Refusal :=
  .next (simpleCommand op_latchCmd p (latchCmdBody p) s)
def execMotorStall (vinMv : Half) (s : State) : Host.Outcome State Fault Refusal := .next (motorStall vinMv s)
def execMotorTimeout (vinMv : Half) (s : State) : Host.Outcome State Fault Refusal := .next (motorTimeout vinMv s)
def execDriveFault (pin : RestPin) (vinMv : Option Half) (s : State) : Host.Outcome State Fault Refusal :=
  .next (driveFault (RestPin.idx pin) vinMv s)
def execCloseRetry (s : State) : Host.Outcome State Fault Refusal := .next (closeRetry s)
def execDwellEnd (s : State) : Host.Outcome State Fault Refusal := .next (dwellEnd s)
def execDeadTimeEnd (s : State) : Host.Outcome State Fault Refusal := .next (deadTimeEnd s)
def execLetGoEnd (pin : RestPin) (s : State) : Host.Outcome State Fault Refusal := .next (letGoEnd (RestPin.idx pin) s)
/-- DOOR_SENSE_CHANGE: a debounced change (R232). -/
def execDoorSenseChange (asserted : Bool) (s : State) : Host.Outcome State Fault Refusal :=
  .next (if alive s && s.door.open_ != asserted then (if asserted then doorOpens s else doorCloses s) else s)
def execHandleAssert (s : State) : Host.Outcome State Fault Refusal :=
  .next (if alive s && !s.door.handle then handleAsserts s else s)
def execHandleRelease (s : State) : Host.Outcome State Fault Refusal :=
  .next (if alive s && s.door.handle then handleReleases s else s)
/-- PRIVACY_SET: the handle held 2 s with the door closed (R233). -/
def execPrivacySet (s : State) : Host.Outcome State Fault Refusal :=
  .next (if alive s && s.door.handle && !s.door.open_ then setPrivacy true s else s)
/-- TAMPER: TAMPER_IN asserts or deasserts, after polarity (R59, log 51). -/
def execTamper (asserted : Bool) (s : State) : Host.Outcome State Fault Refusal := .next (tamperChanges asserted s)

end Sys2Proof.Machine
end

