-- ==== Sys2Proof/Machine/Image.lean ====
section
/-! DEFINITION. A reset (R58, R82 to R84), images and their slots (R88 to R96), confirmation and the version floor
(R98 to R100), and the life-cycle (R101 to R103). -/

namespace Sys2Proof.Machine

/-! ### Reset -/

/-- The bit of a cause (Table 5-1). -/
def causeBit (c : Cause) : BitVec 11 := 1#11 <<< (c.code - 1)

/-- Causes for which the device itself drives NRST low (R84). -/
def drivesNrst (c : Cause) : Bool := decide (c.code = 4 ∨ c.code = 5 ∨ 7 ≤ c.code)

/-- Memory errors that a reset leaves: those of the nonvolatile array. -/
def nvBad (l : List (EccSpace × Nat)) : List (EccSpace × Nat) :=
  l.filter fun w => w.1 == .phys && decide (0x40000000 ≤ w.2)

/-- Every group but the nonvolatile one and the always-on domain returns to its reset value; the supplies, the levels of
the board and the model's own counters stay: the tamper polarity is kept, CRED_WAKE's returns to its reset value (R172,
log 51), and the nonvolatile words already reported stay so (R384). A slot in LOADING loses its path's claim, and its
image's last byte counts as not yet written (R94). -/
def clearVolatile (s : State) : State :=
  { s with
    phase := .reset
    nv := { s.nv with
      br := { s.nv.br with path := none }
      imgWrote := (s.nv.imgWrote.filter (·.1 < 256)).map fun r => (r.1, min r.2 (256 - r.1)) }
    pwr := { Pwr.start with
      vinOk := s.pwr.vinOk, vsysOk := s.pwr.vsysOk, vddioOk := s.pwr.vddioOk, vnvmOk := s.pwr.vnvmOk
      vsysLimit := s.pwr.vsysLimit, pgood := s.pwr.pgood, dieTemp := s.pwr.dieTemp }
    boot := Boot.start, hb := { Hb.start with out := s.hb.out, ack := s.hb.ack }, cmd := Cmd.start
    keep := { Keep.start with draws := s.keep.draws }
    vd := Vd.start, door := { Door.start with
      gpExt := s.door.gpExt, tamperIn := s.door.tamperIn
      credWake := s.door.credWake != s.door.inCfg.getLsbD 3 }
    pb := Pb.start, rx := Rx.start, jug := Jug.start, car := Car.start, fm := Fm.start
    err := { Err.start with bad := nvBad s.err.bad, told := nvBad s.err.told } }

/-- A reset cause asserts (R82): within a reset it joins the causes, else a new reset begins. The device drives NRST for
the causes of R84 until the reset ends, but never while VDDIO is below 1.5 V (R43). -/
def reset (c : Cause) (s : State) : State :=
  let now := if s.phase = .reset then s.ao.causes else 0
  let drive := s.pwr.vddioOk && ((s.phase == .reset && s.boot.nrstDrive) || drivesNrst c)
  ((clearVolatile s).onAo fun a => { a with causes := now ||| causeBit c, seen := a.seen ||| causeBit c })
    |>.onBoot fun b => { b with nrstDrive := drive }

/-! ### The image header -/

/-- `n` bytes of a slot. -/
def slotRead (s : State) (sl : Slot) (off n : Nat) : Bytes := memRead s.mem (slotBase sl + off) n
def slotField (s : State) (sl : Slot) (off n : Nat) : Nat := ofLe (slotRead s sl off n)

/-- `BODY_LEN` within its range (Table 5-2). -/
def bodyLenOk (n : Nat) : Bool := decide (n % 64 = 0 ∧ 1024 ≤ n ∧ n ≤ 786112)

def allZero (b : Bytes) : Bool := b.all (· == 0)

/-- Checks 1 to 3 of R89. -/
def headerOk (s : State) (sl : Slot) : Bool :=
  let f := slotField s sl
  let body := f 16 4
  let jo := f 28 4
  let jl := f 32 4
  let trial := f 36 2
  decide (f 0 4 = 0x4F564C50 ∧ f 4 2 = 1 ∧ f 6 2 < 4 ∧ f 38 2 = 0 ∧ f 72 2 = 0x4810 ∧ f 74 2 ≤ 3)
    && allZero (slotRead s sl 76 52) && bodyLenOk body
    && decide (4 ≤ jl ∧ jl ≤ 16384 ∧ jl % 4 = 0 ∧ jo + jl ≤ body ∧ f 20 4 < body ∧ f 24 4 < jl)
    && decide (trial = 0 ∨ (10 ≤ trial ∧ trial ≤ 900))
    && decide (f 12 4 ≤ f 8 4 ∧ versionFloor s ≤ f 8 4)

/-- The keys that follow the body (R407). -/
def vendorKeyOf (s : State) (sl : Slot) : Bytes := slotRead s sl (256 + slotField s sl 16 4) 32
def ownerKeyOf (s : State) (sl : Slot) : Bytes := slotRead s sl (256 + slotField s sl 16 4 + 32) 32

/-- Check 6 of R89: the owner signature is flagged and verifies under `SP_OWNER_KEY_HASH`. -/
def ownerSigOk (s : State) (sl : Slot) : Bool :=
  decide (slotField s sl 6 2 % 2 = 1) && decide (sha256 (ownerKeyOf s sl) = ownerHash s)
    && edVerify (ownerKeyOf s sl) (slotRead s sl 192 64) (slotRead s sl 0 192)

/-- Check 5 of R89. -/
def vendorSigOk (s : State) (sl : Slot) : Bool :=
  decide (sha256 (vendorKeyOf s sl) = bytesOf 32 256 Config.vendorKeyHash)
    && edVerify (vendorKeyOf s sl) (slotRead s sl 128 64) (slotRead s sl 0 128)

/-- No word that the checks read is uncorrectable: R89 catches one that is (R383). -/
def slotSound (s : State) (sl : Slot) : Bool :=
  s.err.bad.all fun w =>
    w.1 != .phys || decide (w.2 < slotBase sl ∨ slotBase sl + 320 + slotField s sl 16 4 ≤ w.2)

/-- An image passes every check of R89. -/
def imageOk (s : State) (sl : Slot) : Bool :=
  slotSound s sl && headerOk s sl && decide (sha256 (slotRead s sl 256 (slotField s sl 16 4)) = slotRead s sl 40 32)
    && vendorSigOk s sl && (lifeCycle s == .blank || ownerSigOk s sl)

/-! ### Writing a slot -/

/-- The slot that is not active. -/
def inactive (s : State) : Slot := otherSlot s.nv.br.active

/-- A path may write a slot in its present state (R94). -/
def slotWritable (s : State) (sl : Slot) (path : LoadPath) : Bool :=
  match slotState s sl with
  | .empty => true
  | .ready => true
  | .rejected => true
  | .loading => s.nv.br.path == none || s.nv.br.path == some path
  | .trial => false
  | .active => false

/-- The slot that a write from the host or the debug port goes to: the inactive one; in the loader state the active one
when the inactive one cannot be written (R93 item 4). -/
def writeTarget (s : State) : Option Slot :=
  if slotWritable s (inactive s) .host then some (inactive s)
  else if s.boot.loader then some s.nv.br.active else none

/-- Byte `o` of the slot has been written since the load began. -/
def wrote (l : List (Nat × Nat)) (o : Nat) : Bool := l.any fun r => decide (r.1 ≤ o ∧ o < r.1 + r.2)

/-- All header bytes have been written, and the last byte of the image, or the image has no valid end (R94). -/
def loadComplete (s : State) (sl : Slot) : Bool :=
  let n := slotField s sl 16 4
  (List.range 256).all (wrote s.nv.imgWrote) && (!bodyLenOk n || wrote s.nv.imgWrote (256 + n + 63))

/-- A slot moves to LOADING for a path; a new load starts with nothing written. -/
def beginLoad (sl : Slot) (path : LoadPath) (s : State) : State :=
  let s1 := if slotState s sl = .loading then s else s.onNv fun n => { n with imgWrote := [] }
  (setSlot sl .loading s1).onNv fun n => { n with br := { n.br with path := some path } }

/-- Bytes written into the slot being loaded (R94). -/
def loadBytes (sl : Slot) (off : Nat) (data : Bytes) (s : State) : State :=
  let s1 := repair .phys (slotBase sl + off) data.length
    { s with mem := memWrite s.mem (slotBase sl + off) data }
  s1.onNv fun n => { n with imgWrote := (off, data.length) :: n.imgWrote }

/-- The check of R94 starts. -/
def startCheck (sl : Slot) (s : State) : State := s.onBoot fun b => { b with imgCheck := some sl }

/-- IMG_WRITE (R94). -/
def imgWriteBody (p : Packet) (s : State) : State :=
  let off := leField p.payload 0 4
  let data := p.payload.drop 4
  if off % 4 ≠ 0 ∨ slotBytes < off + data.length then answer p .badParam [] s
  else
    match writeTarget s with
    | none => answer p .slotBusy [] s
    | some sl =>
      let s1 := loadBytes sl off data ((beginLoad sl .host s).onNv fun n => { n with imgLoad := none })
      done p (if loadComplete s1 sl then startCheck sl s1 else s1)

/-- The Keep ends the check of a loaded slot (R93, R94). -/
def imgCheckDone (s : State) : State :=
  match s.boot.imgCheck with
  | none => s
  | some sl =>
    let ok := imageOk s sl
    let s1 := setSlot sl (if ok then .ready else .rejected) (s.onBoot fun b =>
      { b with imgCheck := none, loaderReady := b.loaderReady || (b.loader && ok)
               loaderInvalid := b.loaderInvalid || (b.loader && !ok) })
    raise (if ok then .imgReady else .imgInvalid)
      (s1.onNv fun n => { n with br := { n.br with path := none }, imgLoad := none })

/-- IMG_STATUS; the states have no codes in the spec (log 13). -/
def slotCode : SlotState → Nat
  | .empty => 0 | .loading => 1 | .ready => 2 | .trial => 3 | .rejected => 4 | .active => 5

def imgStatusBody (p : Packet) (s : State) : State :=
  answer p .ok
    ([Config.imgStateByte (slotCode s.nv.br.stA), Config.imgStateByte (slotCode s.nv.br.stB), 0, 0]
      ++ slotRead s .a 8 4 ++ slotRead s .b 8 4) s

/-! ### Activation and confirmation -/

/-- An activation time has been reached (R96). -/
def timeReached (s : State) (t : Nat) : Bool := decide (t = 0) || (timeKnown s && decide (t ≤ devSec s))

/-- Activate the other slot: `ST_OK`, or `ST_SLOT_BUSY` when it is neither READY nor TRIAL (R95, R96). -/
def activate (t : Nat) (s : State) : Status × State :=
  let mark (s : State) : State :=
    s.onNv fun n => { n with br := { n.br with actTime := BitVec.ofNat 32 t, due := timeReached s t, started := false } }
  match slotState s (inactive s) with
  | .ready => (.ok, mark (setSlot (inactive s) .trial s))
  | .trial => (.ok, if s.nv.br.due then s else mark s)
  | _ => (.slotBusy, s)

def imgActivateBody (p : Packet) (s : State) : State :=
  let r := activate (leField p.payload 0 4) s
  answer p r.1 [] r.2

/-- The second write of a confirm: raise the floor when it must and can be raised (R99, R100); the answer is `FLOOR`. -/
def raiseFloor (req : Nat) (s : State) : Byte × State :=
  let s1 := s.onNv fun n => { n with br := { n.br with floorPend := none } }
  if req ≤ versionFloor s1 then (0, s1)
  else if cellLeft s1 6 = 0 ∨ lifeCycle s1 = .retired then (2, raise .floorSpent s1)
  else (1, raise .floorRaised (sporeCommit 6 (leBytes 4 req) srcKeep s1))

/-- Confirm the running trial (R99). -/
def confirmTrial (s : State) : Byte × State :=
  let req := slotField s s.boot.slot 12 4
  let s1 := setSlot (otherSlot s.boot.slot) .ready (setSlot s.boot.slot .active s)
  let s2 := s1.onNv fun n => { n with br := { n.br with
    active := s.boot.slot, due := false, started := false, actTime := 0, floorPend := some (BitVec.ofNat 32 req) } }
  raiseFloor req (s2.onBoot fun b => { b with trial := false, trialStart := none })

/-- IMG_CONFIRM (R95, R99, R100). -/
def imgConfirmBody (p : Packet) (s : State) : State :=
  if s.boot.trial then
    let r := confirmTrial s
    answer p .ok [r.1] r.2
  else answer p .badParam [] s

/-- A pending activation falls due (R96). -/
def activationDue (s : State) : State :=
  if slotState s (inactive s) = .trial ∧ s.nv.br.due = false ∧ timeReached s s.nv.br.actTime.toNat = true then
    s.onNv fun n => { n with br := { n.br with due := true } }
  else s

/-- The UPDATE reset may be taken: due, no trial running, latch state 0, 6 or 7, no window open (R95). -/
def updateReady (s : State) : Bool :=
  slotState s (inactive s) == .trial && s.nv.br.due && !s.boot.trial && s.vd.windows.isEmpty
    && (latchCode s == 0 || latchCode s == 6 || latchCode s == 7)

/-! ### Life-cycle -/

/-- Step `SP_LIFECYCLE` `n` times, as the Keep (R102). -/
def stepLife : Nat → State → State
  | 0, s => s
  | n + 1, s => stepLife n (sporeStep 0 srcKeep s)

/-- Preconditions of `LC_PROVISION` (Table 5-4, R210). -/
def mayProvision (s : State) : Bool :=
  lifeCycle s == .blank && cellWritten s 1 && cellWritten s 2 && cellWritten s 3 && ownerSigOk s s.boot.slot
    && !s.keep.rngFailing

/-- `LC_PROVISION`: audit key, hashing key, empty log with its PROVISION entry, sequences at 0, the step (R102, R314,
R363, R367). -/
def provision (s : State) : State :=
  let r := randomBytes 32 s
  let h := randomBytes 16 r.2
  let s1 := writeSlot 4 .audit25519 r.1 0 false h.2
  let pub := edPublic r.1
  let s2 := (s1.onVd fun v => { v with wait := [], windows := [] }).onNv fun n => { n with
    log := { Nv.shipped.log with chain := sha256 (idBytes ++ pub) }
    revHashKey := BitVec.ofNat 128 (ofLe h.1), carEpoch := 0, seqs := [], deltaSeq := 0, snapDone := 0 }
  reset .lifecycle (stepLife 1 (writeNow (entryNow 0x0F srcKeep 0 (pub.take 28) s2) s2))

/-- Steps 3 and 4 of R103: each slot is written as zero (R200). -/
def finishRetire (s : State) : State :=
  zeroise 64 (stepLife (3 - (lifeCycle s).code) s)

/-- The way into RETIRED (R103), from FIELD or PROVISIONED; an open window's entries go first. -/
def retire (s : State) : State :=
  let s1 := closeWindow s
  let s2 := if s1.nv.log.sealed_ then s1 else writeNow (entryNow 0x0E srcKeep 0 [] s1) s1
  let s3 := storeCheckpoint (checkpointNow s2) s2
  reset .lifecycle (finishRetire (s3.onNv fun n => { n with br := { n.br with retireMark := true } }))

/-- The signed transitions: their status, `ST_OK` when they may go ahead (Table 5-4). -/
def lifeStatus (s : State) (target : LifeCycle) (sig : Bytes) : Status :=
  if lifeCycle s = .provisioned ∨ (target = .retired ∧ lifeCycle s = .field) then
    (if lifeSigOk s target sig then .ok else .authFail)
  else .lifecycle

/-- A signed transition that may go ahead (R102, R103). -/
def moveLife (target : LifeCycle) (s : State) : State :=
  if target = .retired then retire s else reset .lifecycle (stepLife 1 s)

/-- What the end of an operation on the hash and curve engine leaves, for those with rules of their own (R102, R104); a
completed transition places no reply. -/
def lifeEnd (j : Job) (s : State) : Option State :=
  match j.op with
  | .provision => some (if mayProvision s then provision s else replyTo j.booth j.tag .lifecycle [] s)
  | .lifeMove target sig =>
    some (match lifeStatus s target sig with
      | .ok => moveLife target s
      | st => replyTo j.booth j.tag st [] s)
  | .dbgSig nonce sig => some (dbgChecked nonce sig s)
  | _ => none

/-- An engine operation finishes (R201). -/
def finishJob (e : EngineId) (s : State) : State :=
  match engineCur s e with
  | some (.cmd j snap early) =>
    match early with
    | some st => endJob e j st s
    | none =>
      if stale s snap then endJob e j .keyStale s
      else
        match lifeEnd j s with
        | some t => if t.phase = .reset then t else freeEngine e t
        | none =>
          let r := runJob j s
          freeEngine e (replyTo j.booth j.tag r.1 r.2.1 r.2.2)
  | _ => s

/-- Nothing holds the hash and curve engine or waits for it. -/
def hashFree (s : State) : Bool := s.keep.hash == Engine.start && s.car.queue.isEmpty && !s.keep.cpWanted

/-- Work of the row's own on the hash and curve engine: at once on a free engine, else in its turn (R193, log 54). -/
def hashWork (j : Job) (s : State) : State :=
  if hashFree s then (lifeEnd j s).getD s else enqueueHash j s

/-- LC_PROVISION (R102). -/
def lcProvisionBody (p : Packet) (s : State) : State :=
  if lifeCycle s = .blank then hashWork { booth := p.src.booth, tag := p.tag, op := .provision } s
  else answer p .lifecycle [] s

def lcFieldBody (p : Packet) (s : State) : State :=
  if lifeCycle s = .provisioned then hashWork { booth := p.src.booth, tag := p.tag, op := .lifeMove .field p.payload } s
  else answer p .lifecycle [] s

def lcRetireBody (p : Packet) (s : State) : State :=
  if lifeCycle s = .provisioned ∨ lifeCycle s = .field then
    hashWork { booth := p.src.booth, tag := p.tag, op := .lifeMove .retired p.payload } s
  else answer p .lifecycle [] s

/-! ### Commands -/

def execImgWrite (p : Packet) (s : State) : Host.Outcome State Fault Refusal :=
  .next (simpleCommand op_imgWrite p (imgWriteBody p) s)
def execImgCheckDone (s : State) : Host.Outcome State Fault Refusal := .next (imgCheckDone s)
def execImgActivate (p : Packet) (s : State) : Host.Outcome State Fault Refusal :=
  .next (simpleCommand op_imgActivate p (imgActivateBody p) s)
def execImgConfirm (p : Packet) (s : State) : Host.Outcome State Fault Refusal :=
  .next (simpleCommand op_imgConfirm p (imgConfirmBody p) s)
def execImgStatus (p : Packet) (s : State) : Host.Outcome State Fault Refusal :=
  .next (simpleCommand op_imgStatus p (imgStatusBody p) s)
def execLcProvision (p : Packet) (s : State) : Host.Outcome State Fault Refusal :=
  .next (simpleCommand op_lcProvision p (lcProvisionBody p) s)
def execLcField (p : Packet) (s : State) : Host.Outcome State Fault Refusal :=
  .next (simpleCommand op_lcField p (lcFieldBody p) s)
def execLcRetire (p : Packet) (s : State) : Host.Outcome State Fault Refusal :=
  .next (simpleCommand op_lcRetire p (lcRetireBody p) s)
/-- ENGINE_OPERATION_END (R201). -/
def execEngineOperationEnd (e : EngineId) (s : State) : Host.Outcome State Fault Refusal := .next (finishJob e s)
/-- DEV_RESET_FIRE (Table 7-2, `DEV_RESET`). -/
def execDevResetFire (s : State) : Host.Outcome State Fault Refusal :=
  .next (if s.boot.devReset.isSome then reset .devReset s else s)
/-- KEEP_CHECK (R192). -/
def execKeepCheck (ok : Bool) (s : State) : Host.Outcome State Fault Refusal :=
  .next (if alive s && !ok then reset .keepFault s else s)
/-- The trial watchdog has counted its length in RTC seconds since the release (R97). -/
def trialOver (s : State) : Bool :=
  match s.boot.trialStart with
  | some t => s.boot.trial && decide (t + trialLimit s * 32768 ≤ s.ao.rtc)
  | none => false

/-- TRIAL_WDT_EXPIRE (R97, log 32). -/
def execTrialWdtExpire (s : State) : Host.Outcome State Fault Refusal :=
  .next (if alive s && trialOver s then reset .trialWdt s else s)
/-- ACTIVATION_DUE (R96). -/
def execActivationDue (s : State) : Host.Outcome State Fault Refusal := .next (if alive s then activationDue s else s)
/-- UPDATE_RESET (R95). -/
def execUpdateReset (s : State) : Host.Outcome State Fault Refusal :=
  .next (if alive s && updateReady s then reset .update s else s)

end Sys2Proof.Machine
end

