-- ==== Sys2Proof/Machine/CarCheck.lean ====
section
/-! DEFINITION. Cars: header and trailer (R311, R312), malformed cars (R313), order (R13, R314, R317), and the checks
before verification (R315). -/

namespace Sys2Proof.Machine

/-! ### Fields -/

def carTyp (c : Bytes) : Nat := (byteAt c 0).toNat
def carFlags (c : Bytes) : Nat := leField c 2 2
def carOwnerSig (c : Bytes) : Bool := carFlags c % 2 == 1
def carEpochOf (c : Bytes) : Nat := leField c 8 2
def carLen (c : Bytes) : Nat := leField c 14 2
def carSeq (c : Bytes) : Nat := leField c 16 4
def carPayload (c : Bytes) : Bytes := sub c 32 (carLen c)
/-- The signed bytes: every byte before `DC_SIG` (R312). -/
def carSigned (c : Bytes) : Bytes := c.take (64 + carLen c)
def carHash (c : Bytes) : Bytes := sha256 (carSigned c)
def carDcKey (c : Bytes) : Bytes := sub c (32 + carLen c) 32
def carDcSig (c : Bytes) : Bytes := sub c (64 + carLen c) 64
def carOwnKey (c : Bytes) : Bytes := sub c (128 + carLen c) 32
def carOwnSig (c : Bytes) : Bytes := sub c (160 + carLen c) 64

/-- Page, part or chunk (Table 15-3). -/
def carSub (c : Bytes) : Nat :=
  let p := carPayload c
  if carTyp c = 5 then leField p 4 2 else if carTyp c = 6 then leField p 0 1
  else if carTyp c = 9 then leField p 8 2 else 0

/-- The page of a stored sequence: one per page for GRANT (R314). -/
def carPage (c : Bytes) : Nat := if carTyp c = 6 then carSub c else 0

/-- `NEW_BASE` of an EPOCH car (R320). -/
def newBase (c : Bytes) : Bool := carTyp c == 3 && (byteAt (carPayload c) 0).getLsbD 0

/-! ### Stored sequences -/

def seqFind (s : State) (typ page : Nat) : Option SeqRec := s.nv.seqs.find? fun r => r.typ = typ ∧ r.page = page

/-- Stored sequence of a type or page; that of REVOKE_DELTA is held apart (R314, R321). -/
def storedSeq (s : State) (typ page : Nat) : Nat :=
  if typ = 4 then s.nv.deltaSeq else match seqFind s typ page with | some r => r.seq | none => 0

/-- Hash of the car applied last, if it is known. -/
def storedHash (s : State) (typ page : Nat) : Bytes :=
  match seqFind s typ page with | some r => r.hash | none => []

/-- Commit a sequence and hash (R317). -/
def putSeq (typ page seq : Nat) (hash : Bytes) (s : State) : State :=
  s.onNv fun n =>
    { n with
      seqs := { typ := typ, page := page, seq := seq, hash := hash }
        :: n.seqs.filter fun r => !(decide (r.typ = typ ∧ r.page = page))
      deltaSeq := if typ = 4 then seq else n.deltaSeq }

/-! ### Layout -/

/-- Consecutive records of `size` bytes. -/
def records (size : Nat) : Nat → Bytes → List Bytes
  | 0, _ => []
  | n + 1, b => b.take size :: records size n (b.drop size)

def timeLayout (p : Bytes) : Bool :=
  let ofs := (BitVec.ofNat 16 (leField p 8 2)).toInt
  decide (p.length = 60 ∧ leField p 4 4 ≤ 999999 ∧ -720 ≤ ofs ∧ ofs ≤ 840 ∧ (byteAt p 10).toNat ≤ 2)
    && byteAt p 11 == 0 && (byteAt p 10 != 0 || leField p 12 4 == 0) && leField p 18 2 == 0 && leField p 20 4 == 0

def mastLayout (e : Bytes) : Bool :=
  chanOk (BitVec.ofNat 16 (leField e 2 2)) && decide (1 ≤ leField e 0 2 ∧ leField e 0 2 ≤ 0xFFFE)
    && decide ((byteAt e 4).toNat ≤ 3) && leField e 5 3 == 0

def mapLayout (p : Bytes) : Bool :=
  let m := (byteAt p 0).toNat
  let f := (byteAt p 1).toNat
  decide (1 ≤ m ∧ m ≤ 32 ∧ f ≤ 16 ∧ leField p 2 2 = 0 ∧ p.length = 4 + 8 * m + 4 * f)
    && (records 8 m (p.drop 4)).all mastLayout
    && (records 4 f (p.drop (4 + 8 * m))).all fun e => decide (6400 ≤ leField e 2 2 ∧ leField e 2 2 ≤ 10800)

/-- R320. The rule gives the lock-group number of an entry no range, so 0x0000 and 0xFFFF make no car malformed; no device
has such a group, and the entry matches none: the model's choice (log 46). A NEW_BASE needs the owner's signature and an `EPOCH` above the car epoch. A repeat of the car that set the
present epoch is left to check 5 (R13). -/
def epochLayout (s : State) (c p : Bytes) : Bool :=
  let n := (byteAt p 1).toNat
  decide ((byteAt p 0).toNat ≤ 1 ∧ 1 ≤ n ∧ n ≤ (if newBase c then 87 else 88) ∧ leField p 2 2 = 0
      ∧ p.length = 4 + 44 * n)
    && (records 44 n (p.drop 4)).all (fun e => decide (leField e 2 2 ≠ 0))
    && (!newBase c || (carOwnerSig c
        && (decide (s.nv.carEpoch.toNat < carEpochOf c)
            || (decide (s.nv.carEpoch.toNat = carEpochOf c) && storedHash s 3 0 == carHash c))))

def deltaLayout (p : Bytes) : Bool :=
  let n := leField p 0 2 + leField p 2 2
  decide (4 ≤ p.length ∧ 1 ≤ n ∧ n ≤ 660 ∧ p.length = 4 + 6 * n)

/-- R322; a part of the snapshot in progress keeps its `PART_COUNT`. -/
def snapLayout (s : State) (c p : Bytes) : Bool :=
  let n := leField p 8 2
  let cnt := leField p 6 2
  decide (1 ≤ cnt ∧ cnt ≤ 1024 ∧ leField p 4 2 < cnt ∧ 1 ≤ n ∧ n ≤ 659 ∧ leField p 10 2 = 0 ∧ p.length = 12 + 6 * n)
    && (match s.car.snap with | some sn => decide (carSeq c ≠ sn.seq) || decide (cnt = sn.count) | none => true)

def ruleLayout (e : Bytes) : Bool := decide ((byteAt e 1).toNat < 4) && leField e 2 2 == 0

/-- An interval of Table 11-5; an unused one has `DAYS` 0. -/
def intervalLayout (e : Bytes) : Bool :=
  let d := (byteAt e 0).toNat
  decide (d < 128) && (decide (d = 0)
    || decide (leField e 1 2 ≤ 1439 ∧ leField e 3 2 ≤ 1440 ∧ leField e 1 2 < leField e 3 2))

def grantLayout (p : Bytes) : Bool :=
  let g := (byteAt p 0).toNat
  leField p 1 3 == 0
    && (if g ≤ 127 then decide (p.length = 2052) && (records 4 512 (p.drop 4)).all ruleLayout
        else decide (g ≤ 129 ∧ p.length = 2544) && (records 5 508 (p.drop 4)).all intervalLayout)

def noticeLayout (p : Bytes) : Bool := decide (4 ≤ p.length) && byteAt p 1 == 0

/-- The commands of a REMOTE payload: code and arguments (R325). -/
def remoteCmds : Nat → Bytes → List (Byte × Bytes)
  | 0, _ => []
  | n + 1, b =>
    let len := (byteAt b 1).toNat
    (byteAt b 0, sub b 2 len) :: remoteCmds n (b.drop (2 + len))

/-- Total length of `n` commands. -/
def remoteSize : Nat → Bytes → Nat
  | 0, _ => 0
  | n + 1, b => 2 + (byteAt b 1).toNat + remoteSize n (b.drop (2 + (byteAt b 1).toNat))

def remoteLayout (p : Bytes) : Bool :=
  let n := (byteAt p 0).toNat
  decide (1 ≤ n ∧ n ≤ 32 ∧ p.length = 2 + remoteSize n (p.drop 2)) && byteAt p 1 == 0

/-- Chunks of an image of `total` bytes (R326). -/
def chunkCount (total : Nat) : Nat := (total + 3839) / 3840

def imageLayout (p : Bytes) : Bool :=
  let total := leField p 4 4
  let k := leField p 8 2
  decide (12 ≤ p.length ∧ leField p 10 2 = 0 ∧ 1 ≤ total ∧ total ≤ slotBytes ∧ k < chunkCount total
    ∧ p.length = 12 + min 3840 (total - 3840 * k))

def entryLayout (e : Bytes) : Bool :=
  decide (1 ≤ leField e 0 2 ∧ leField e 0 2 ≤ 0xFFFE) && chanOk (BitVec.ofNat 16 (leField e 2 2))
    && decide (1 ≤ (byteAt e 4).toNat ∧ (byteAt e 4).toNat ≤ 10 ∧ (byteAt e 5).toNat ≤ 1)

def scheduleLayout (p : Bytes) : Bool :=
  let n := leField p 10 2
  decide (1000 ≤ leField p 0 4 ∧ leField p 0 4 ≤ 600000 ∧ leField p 8 2 ≤ 999 ∧ 1 ≤ n ∧ n ≤ 329
      ∧ p.length = 12 + 12 * n)
    && (records 12 n (p.drop 12)).all entryLayout

/-- The payload follows the layout of its type. -/
def payloadOk (s : State) (c : Bytes) : Bool :=
  let p := carPayload c
  match carTyp c with
  | 1 => timeLayout p
  | 2 => mapLayout p
  | 3 => epochLayout s c p
  | 4 => deltaLayout p
  | 5 => snapLayout s c p
  | 6 => grantLayout p
  | 7 => noticeLayout p
  | 8 => remoteLayout p
  | 9 => imageLayout p
  | 10 => scheduleLayout p
  | _ => false

/-- Scope kinds of a type (Table 15-3). -/
def scopeAllowed (typ kind : Nat) : Bool :=
  if typ = 3 then decide (kind ≤ 1) else if 6 ≤ typ ∧ typ ≤ 9 then decide (kind ≤ 2) else decide (kind = 0)

/-- A car is well formed (R313). -/
def carWellFormed (s : State) (c : Bytes) : Bool :=
  let kind := (byteAt c 10).toNat
  let v := leField c 12 2
  decide (c.length ≤ 4096 ∧ c.length = 128 + carLen c + (if carOwnerSig c then 96 else 0))
    && decide (1 ≤ carTyp c ∧ carTyp c ≤ 10 ∧ byteAt c 1 = 1 ∧ carFlags c ≤ 1 ∧ byteAt c 11 = 0 ∧ 1 ≤ carSeq c
        ∧ leField c 28 4 = 0)
    && (if kind = 0 then decide (v = 0xFFFF) else decide (1 ≤ v ∧ v ≤ 0xFFFE))
    && scopeAllowed (carTyp c) kind && (!carOwnerSig c || carTyp c == 3 || carTyp c == 8) && payloadOk s c

/-! ### Order -/

/-- What checks 5 and 6 say of a car (R315, R317). -/
inductive CarOrder where
  | ok | duplicate | rival | frozen
deriving DecidableEq, Repr

/-- Order of a snapshot part (R322 items 1 and 2). -/
def snapOrder (s : State) (c : Bytes) : CarOrder :=
  if !(s.nv.behind || s.nv.revFull || decide (s.nv.deltaSeq < leField (carPayload c) 0 4)) then .duplicate
  else
    match s.car.snap with
    | some sn =>
      if carSeq c < sn.seq || (carSeq c == sn.seq && sn.held.contains (carSub c)) then .duplicate else .ok
    | none => if carSeq c ≤ s.nv.snapDone then .duplicate else .ok

/-- Order of a car compared by sequence; `verified` tells a rival from a newcomer (R314, R317, R321). -/
def seqOrder (s : State) (verified : Bool) (c : Bytes) : CarOrder :=
  let q := storedSeq s (carTyp c) (carPage c)
  let h := storedHash s (carTyp c) (carPage c)
  if carSeq c < q || (carSeq c == q && (h == [] || h == carHash c)) then .duplicate
  else if carSeq c = q ∧ verified then .rival
  else if q = 0xFFFFFFFF || (carTyp c == 4 && s.nv.behind) then .frozen
  else .ok

/-- The chunk of an IMAGE car is held: by the load of its version, or in the inactive slot, READY with that version
(R326; log 31). -/
def imageHeld (s : State) (c : Bytes) : Bool :=
  let p := carPayload c
  let v := leField p 0 4
  (slotState s (inactive s) == .ready && slotField s (inactive s) 8 4 == v)
    || match s.nv.imgLoad with
      | none => false
      | some l => l.version == v && l.total == leField p 4 4 && l.held.contains (carSub c)

/-- The car equals the one applied last of its type, by sequence and hash of the signed bytes (R13). -/
def isRepeat (s : State) (c : Bytes) : Bool :=
  storedSeq s (carTyp c) (carPage c) == carSeq c && storedHash s (carTyp c) (carPage c) == carHash c

/-- Checks 5 and 6 (R13, R314, R315, R320, R326). -/
def carOrder (s : State) (verified : Bool) (c : Bytes) : CarOrder :=
  let e := carEpochOf c
  let base := s.nv.carEpoch.toNat
  if e < base then .duplicate
  else if newBase c && decide (base < e) then .ok
  else if base < e then .frozen
  else if carTyp c = 5 then snapOrder s c
  else if carTyp c = 9 then
    (if imageHeld s c || isRepeat s c then .duplicate else if storedSeq s 9 0 = 0xFFFFFFFF then .frozen else .ok)
  else seqOrder s verified c

/-! ### Checks -/

/-- The scope names this device (R11, R12), and the band midpoint lies in the validity window (check 4). -/
def carInScope (s : State) (c : Bytes) : Bool :=
  let kind := (byteAt c 10).toNat
  let v := leField c 12 2
  let named := cellWritten s 4 && cellWritten s 5
  (kind == 0 || (named && (if kind = 1 then decide (v = lockGroup s) else decide (v = doorId s))))
    && (carTyp c == 1 || timeUnsure s
        || (decide (leField c 20 4 ≤ devSec s) && (leField c 24 4 == 0xFFFFFFFF || decide (devSec s < leField c 24 4))))

/-- Check 7: the keys of the trailer match their hashes. -/
def carKeysOk (s : State) (c : Bytes) : Bool :=
  decide (sha256 (carDcKey c) = cellValue s 3) && (!carOwnerSig c || decide (sha256 (carOwnKey c) = ownerHash s))

/-- A dropped car: the status of its `DC_INJECT`, the payload, the counter (Table 15-2). -/
structure CarDrop where
  status : Status
  reason : Bytes
  counter : Option Counter
deriving DecidableEq, Repr

def carDrop (reason : Byte) (c : Counter) : Option CarDrop :=
  some { status := .carReject, reason := [reason], counter := some c }

/-- The checks of Table 15-2, in order; none when the car passes. -/
def carCheck (s : State) (c : Bytes) : Option CarDrop :=
  if lifeCycle s ≠ .provisioned ∧ lifeCycle s ≠ .field then some { status := .lifecycle, reason := [], counter := none }
  else if !carWellFormed s c then carDrop 0x07 .sigReject
  else if leField c 4 4 ≠ propertyId s then carDrop 0x01 .stranger
  else if !carInScope s c then carDrop 0x04 .scope
  else
    match carOrder s false c with
    | .duplicate => carDrop 0x03 .duplicate
    | .rival => carDrop 0x03 .duplicate
    | .frozen => carDrop 0x06 .seqFrozen
    | .ok =>
      if !carKeysOk s c then carDrop 0x02 .sigReject
      else if 4 ≤ s.car.queue.length then carDrop 0x05 .overrun
      else none

/-- Signatures of a car (R312, R194). -/
def carSigsOk (c : Bytes) : Bool :=
  edVerify (carDcKey c) (carDcSig c) (carSigned c)
    && (!carOwnerSig c || edVerify (carOwnKey c) (carOwnSig c) (c.take (160 + carLen c)))

end Sys2Proof.Machine
end

