-- ==== Sys2Proof/Machine/Learn.lean ====
section
/-! DEFINITION. Masts and learned listening: means and the chosen mast (R329), slots, their prediction and what is learned
of them (R330), and which slots are needed (R331). -/

namespace Sys2Proof.Machine

/-! ### Masts -/

/-- The last 8 LQIs of a mast (R329). -/
def lqisOf (s : State) (m : Half) : List Nat :=
  match s.rx.lqis.find? (·.1 = m) with | some x => x.2 | none => []

/-- The mean of a list lies below that of another; an empty list counts as 0. -/
def meanBelow (a b : List Nat) : Bool := decide (a.sum * max 1 b.length < b.sum * max 1 a.length)

/-- The mast of a list with the highest mean; the first of equals. -/
def bestOf (s : State) : List Half → Option Half
  | [] => none
  | m :: ms =>
    match bestOf s ms with
    | none => some m
    | some b => if meanBelow (lqisOf s m) (lqisOf s b) then some b else some m

/-- Masts of the MAP. -/
def mapMasts (s : State) : List Half := s.nv.masts.map (·.mast)

/-- The chosen mast: kept while the MAP names it, else the one with the highest mean (R329). -/
def chosenMast (s : State) : Option Half :=
  match s.rx.chosen with
  | some m => if (mapMasts s).contains m then some m else bestOf s (mapMasts s)
  | none => bestOf s (mapMasts s)

/-- Move to the next-best mast (R329); what the old one missed counts no more. -/
def moveMast (s : State) : State :=
  match bestOf s ((mapMasts s).filter fun m => some m != chosenMast s) with
  | some m => raise .mastChange (s.onRx fun r =>
      { r with chosen := some m, slots := r.slots.map fun x => { x with missed := 0 } })
  | none => s

/-- The chosen mast's mean has fallen below 96 while another one's is 128 or more (R329). -/
def mastFades (s : State) : Bool :=
  match chosenMast s with
  | some c => meanBelow (lqisOf s c) [96] && (mapMasts s).any fun m => m != c && !meanBelow (lqisOf s m) [128]
  | none => false

/-- A good frame of a mast of the MAP (R329). -/
def noteLqi (m : Half) (lqi : Nat) (s : State) : State :=
  let s0 := s.onRx fun r => { r with heardAt := (m, s.ao.rtc) :: r.heardAt.filter (·.1 ≠ m) }
  if (mapMasts s).contains m then
    let s1 := s0.onRx fun r =>
      { r with chosen := chosenMast s, lqis := (m, (lqi :: lqisOf s m).take 8) :: r.lqis.filter (·.1 ≠ m) }
    if mastFades s1 then moveMast s1 else s1
  else s0

/-! ### Needs -/

/-- The highest page stored for GRANT, `BOOT_VERSION` for IMAGE, else the stored sequence: what a watermark is held against
(R331). -/
def storedMark (s : State) (t : Nat) : Nat :=
  if t = 9 then s.boot.version.toNat
  else if t = 6 then ((s.nv.seqs.filter (·.typ = 6)).map (·.seq)).foldl max 0
  else storedSeq s t 0

/-- 24 h of device time have passed since a noted second; with time unknown they count as passed. -/
def dayPast (s : State) (at_ : Option Nat) : Bool :=
  match at_ with
  | none => true
  | some t => !timeKnown s || decide (t + 86400 ≤ devSec s)

/-- A car of the type has been heard, by the device second. -/
def dailyAt (s : State) (t : Nat) : Option Nat := (s.rx.dailyCars.find? (·.1 = t)).map (·.2)

/-- The device needs a slot of a car type (R331). -/
def needsType (s : State) (t : Nat) : Bool :=
  decide (t = 1 ∨ t = 4) || (decide (t = 5) && (s.nv.behind || s.nv.revFull))
    || (decide (t = 2 ∨ t = 10) && dayPast s (dailyAt s t))
    || (if h : t < 11 then decide (t ≠ 0 ∧ t ≠ 5) && decide (storedMark s t < s.car.watermarks.get ⟨t, h⟩) else false)

/-! ### Slots -/

def isSlot (chan mast : Half) (typ : Nat) (x : SlotLearn) : Bool := x.chan == chan && x.mast == mast && x.typ == typ

/-- What is known of a slot. -/
def slotOf (s : State) (chan mast : Half) (typ : Nat) : SlotLearn :=
  (s.rx.slots.find? (isSlot chan mast typ)).getD
    { chan := chan, mast := mast, typ := typ, empty := 0, missed := 0, errs := [], last := none, cycle := none
      relearn := false }

def putSlot (x : SlotLearn) (s : State) : State :=
  s.onRx fun r => { r with slots := x :: r.slots.filter fun y => !isSlot x.chan x.mast x.typ y }

/-- The timetable's entry of a slot (R327). -/
def schedOf (s : State) (chan mast : Half) (typ : Nat) : Option SchedEnt :=
  s.nv.sched.find? fun e => e.chan == chan && e.mast == mast && e.typ == typ

/-- Milliseconds from now to the next start of a timetable slot, less than its cycle (R327, R330). -/
def slotAhead (s : State) (e : SchedEnt) : Nat :=
  let now := devSec s * 1000 + devMs s
  let start := e.startS * 1000 + e.startMs + e.offMs
  let c := max 1 e.cycleMs
  (start % c + c - now % c) % c

/-- RTC periods in milliseconds, to the nearest. -/
def msTicks (n : Nat) : Nat := (n * 32768 + 500) / 1000

/-- The mean of the last observed errors (R330). -/
def meanErr (x : SlotLearn) : Int := sumInt x.errs / max 1 (x.errs.length : Int)

/-- The predicted start of a slot, as an RTC period: the timetable's start corrected by the mean error, or with no timetable
the last reception plus the learned cycle (R330). -/
def predicted (s : State) (chan mast : Half) (typ : Nat) : Option Int :=
  let x := slotOf s chan mast typ
  match schedOf s chan mast typ with
  | some e => if timeKnown s then some (s.ao.rtc + msTicks (slotAhead s e) + meanErr x) else none
  | none => match x.last, x.cycle with
    | some l, some c => some ((l.2 : Int) + c)
    | _, _ => none

/-- The guard g of R330 in RTC periods: 0.5 ms plus 20 ppm of the time since the mast's last good frame. -/
def guardOf (s : State) (mast : Half) : Nat :=
  let since := match s.rx.heardAt.find? (·.1 = mast) with | some x => s.ao.rtc - x.2 | none => s.ao.rtc
  17 + since * 20 / 1000000

/-- Opening and closing of the window of a slot's types by prediction: g before the earliest start, g after the latest end
(R330, R331). -/
def planOf (s : State) (p : SlotPlan) : Option (Nat × Nat) :=
  let g := guardOf s p.mast
  let spans := (List.range 11).filterMap fun t =>
    if p.types.getLsbD t then
      (predicted s p.chan p.mast t).map fun x =>
        (x.toNat - g, x.toNat + g + match schedOf s p.chan p.mast t with | some e => msTicks e.durMs | none => 0)
    else none
  match spans with
  | [] => none
  | x :: xs => some (xs.foldl (fun m y => (min m.1 y.1, max m.2 y.2)) x)

/-- Car types that the timetable expects on a channel within `ms` milliseconds from now, a slot in progress included (R256,
R327); none while time is unknown. -/
def expected (s : State) (chan : Half) (ms : Nat) : Half :=
  if timeKnown s then
    (s.nv.sched.filter fun e => e.chan == chan
        && (decide (slotAhead s e < ms) || decide (max 1 e.cycleMs < slotAhead s e + e.durMs))).foldl
      (fun m e => m ||| (1#16 <<< e.typ)) 0
  else 0

/-- Difference of an observed start from the timetable, the nearer way round the cycle, in RTC periods. -/
def startError (s : State) (e : SchedEnt) (ref : Nat) : Int :=
  let c := msTicks (max 1 e.cycleMs)
  let late := (s.ao.rtc - ref + msTicks (slotAhead s e)) % max 1 c
  -- the next start lies `late` after the observed one, modulo the cycle
  if 2 * late ≤ c then -(late : Int) else (c : Int) - late

/-- A car has been heard from a mast (R330, R331): its slot is observed; the same car again gives the cycle. -/
def heardCar (c : Bytes) (mast : Half) (ref : Nat) (s : State) : State :=
  let t := carTyp c
  let chan := s.rx.chan
  let x := slotOf s chan mast t
  let errs := match schedOf s chan mast t with
    | some e => if timeKnown s then (startError s e ref :: x.errs).take 4 else x.errs
    | none => x.errs
  let cycle := match x.last with
    | some l => if l.1 = carSeq c ∧ l.2 < ref then some (ref - l.2) else x.cycle
    | none => x.cycle
  let s1 := putSlot { x with errs := errs, cycle := cycle, last := some (carSeq c, ref), empty := 0, missed := 0
                             relearn := false } s
  s1.onRx fun r => { r with
    dailyCars := if t = 2 ∨ t = 10 then (t, devSec s) :: r.dailyCars.filter (·.1 ≠ t) else r.dailyCars
    window := r.window.map fun w => { w with cars := w.cars + 1, heard := true, got := w.got ||| (1#16 <<< t) } }

/-- A car of a type has been applied in the window in progress (R330). -/
def appliedIn (t : Nat) (s : State) : State :=
  s.onRx fun r => { r with window := r.window.map fun w => { w with applied := w.applied ||| (1#16 <<< t) } }

/-- Every car that a learned window is needed for has been applied (R330). -/
def windowServed (w : Window) : Bool :=
  w.cmd.isNone && w.opened && w.types != 0 && (w.types &&& ~~~ w.applied) == 0

/-- One slot of a window that has ended: empty windows and missed cars in a row (R329, R330). -/
def noteSlot (w : Window) (t : Nat) (s : State) : State :=
  if w.types.getLsbD t then
    let x := slotOf s w.chan w.mast t
    let empty := if w.heard then 0 else x.empty + 1
    let missed := if w.got.getLsbD t then 0 else if needsType s t then x.missed + 1 else x.missed
    if 3 ≤ empty then
      raise .scheduleLost (putSlot { x with empty := 0, missed := missed, errs := [], cycle := none, last := none
                                            relearn := true } s)
    else putSlot { x with empty := empty, missed := missed } s
  else s

/-- An opened window of learned slots has ended (R329, R330): after two cycles without a needed car of the chosen mast the
next-best one is taken; a window without types ends the learning of its channel's slots. -/
def noteWindow (w : Window) (s : State) : State :=
  if w.cmd.isSome || !w.opened then s
  else
    let s1 := (List.range 11).foldl (fun s t => noteSlot w t s) s
    let s2 := if w.types = 0 then s1.onRx fun r =>
        { r with slots := r.slots.map fun x => if x.chan = w.chan then { x with relearn := false } else x } else s1
    let lost := (List.range 11).any fun t => w.types.getLsbD t && decide (2 ≤ (slotOf s2 w.chan w.mast t).missed)
    if chosenMast s2 == some w.mast && lost then moveMast s2 else s2

/-! ### Which windows are wanted -/

/-- The radio may be started: not in RETIRED (Table 5-3), not in hold-safe, the Juggler released. -/
def radioUp (s : State) : Bool :=
  s.phase == .running && s.jug.released && lifeCycle s != .retired

/-- A slot of the channel is being learned, or no cycle of it is known with no timetable: the device listens continuously
(R330). -/
def learning (s : State) (p : SlotPlan) : Bool :=
  s.rx.slots.any (fun x => x.chan == p.chan && x.relearn)
    || (s.nv.sched.all (fun e => e.chan != p.chan) && s.rx.slots.all (fun x => x.chan != p.chan || x.cycle.isNone))

/-- A window that refreshes the mean of a mast other than the chosen one: once in 24 h of device time (R329). -/
def refreshWanted (s : State) (p : SlotPlan) : Bool :=
  (mapMasts s).contains p.mast && some p.mast != chosenMast s
    && dayPast s ((s.rx.refreshed.find? (·.1 = p.mast)).map (·.2))

/-- A refresh window is noted (R329). -/
def noteRefresh (p : SlotPlan) (s : State) : State :=
  if p.types = 0 ∧ (mapMasts s).contains p.mast ∧ some p.mast ≠ chosenMast s then
    s.onRx fun r => { r with refreshed := (p.mast, devSec s) :: r.refreshed.filter (·.1 ≠ p.mast) }
  else s

/-- A slot is one the device listens to (R329 to R331): a needed one of the chosen mast, or before any MAP one on the
channel of the last good frame of the property; a window without types learns a channel or refreshes a mast's mean. -/
def slotWanted (s : State) (p : SlotPlan) : Bool :=
  let known := if s.nv.masts = [] then s.rx.lastChan == some p.chan else chosenMast s == some p.mast
  if p.types == 0 then (known && learning s p) || refreshWanted s p
  else known && (List.range 11).any fun t => p.types.getLsbD t && needsType s t

end Sys2Proof.Machine
end

