-- ==== Sys2Proof/Machine/Cars.lean ====
section
/-! DEFINITION. What a verified car does (R317 to R327), its delivery (R324), and the verification queue (R316). -/

namespace Sys2Proof.Machine

/-! ### The revocation set -/

def revBase : Nat := 0x40000000
def revEnd : Nat := 0x40400000

/-- The set falls behind (R21, R321, R385). -/
def setBehind (s : State) : State := raise .revokeBehind (s.onNv fun n => { n with behind := true })

/-- Insert an ID in rising order. -/
def insertId (x : Nat) : List Nat → List Nat
  | [] => [x]
  | y :: ys => if x < y then x :: y :: ys else if x = y then y :: ys else y :: insertId x ys

/-- An ID of six bytes. -/
def idsOf (n : Nat) (b : Bytes) : List Nat := (records 6 n b).map ofLe

/-- The two candidate buckets of an ID, and the IDs that stand in a bucket or, for none, in the stash (chapter 11). -/
def bucketOf (s : State) (x : Nat) (second : Bool) : BitVec 16 :=
  Config.revBucket s.nv.revHashKey (BitVec.ofNat 48 x) second

def standing (s : State) (p : Option (BitVec 16)) : Nat := (s.nv.revPlace.filter fun e => e.2 = p).length

/-- A bucket has a free place among its ten. -/
def bucketRoom (s : State) (b : BitVec 16) : Bool :=
  decide (s.nv.revPlace.length < 10) || decide (standing s (some b) < 10)

/-- Where an addition goes: the emptier candidate bucket, the first of equals; the stash of 512 when both are full; none
when that is full too (R220, log 16). -/
def placeOf (s : State) (x : Nat) : Option (Option (BitVec 16)) :=
  let a := bucketOf s x false
  let b := bucketOf s x true
  if bucketRoom s a || bucketRoom s b then
    some (some (if standing s (some a) ≤ standing s (some b) then a else b))
  else if standing s none < 512 then some none else none

/-- Add IDs (R220): whether all were placed. -/
def addIds : List Nat → State → State × Bool
  | [], s => (s, true)
  | x :: xs, s =>
    if s.nv.revoked.contains x then addIds xs s
    else
      match (if 524288 ≤ s.nv.revoked.length then none else placeOf s x) with
      | none => ((addIds xs s).1, false)
      | some p =>
        addIds xs (s.onNv fun n => { n with revoked := insertId x n.revoked, revPlace := (x, p) :: n.revPlace })

/-- Add IDs, and set the set full when one finds no place (R220). -/
def placeIds (xs : List Nat) (s : State) : State × Bool :=
  let r := addIds xs s
  if r.2 then r else (raise .revokeFull (r.1.onNv fun n => { n with revFull := true }), false)

/-- Keep the IDs that satisfy `p`, in the set and in their places. -/
def keepIds (p : Nat → Bool) (s : State) : State :=
  s.onNv fun n => { n with revoked := n.revoked.filter p, revPlace := n.revPlace.filter fun e => p e.1 }

def removeIds (xs : List Nat) (s : State) : State := keepIds (fun x => !xs.contains x) s

/-- Mark IDs seen by the snapshot in progress (R322). -/
def markSeen (xs : List Nat) (s : State) : State :=
  s.onCar fun c => { c with snap := c.snap.map fun sn => { sn with seen := xs ++ sn.seen } }

/-! ### Commit and delivery -/

/-- The commit, EV_CAR_APPLIED and the CAR entry (R317, Table 17-3). -/
def commitCar (q : QCar) (s : State) : State :=
  let c := q.bytes
  let s1 := if carTyp c = 5 then s else putSeq (carTyp c) (carPage c) (carSeq c) (carHash c) s
  logMake 0x08 srcCarousel 0
    ([BitVec.ofNat 8 (carTyp c)] ++ leBytes 2 q.mast.toNat ++ leBytes 4 (carSeq c) ++ leBytes 2 (carEpochOf c)
      ++ leBytes 2 (carSub c)) (raise .carApplied s1)

/-- A booth takes delivery of a car (R324). -/
def takesCar (s : State) (c : Bytes) (b : Booth) : Bool :=
  (s.booth b).mode == .enabled && (s.booth b).cars.getLsbD (carTyp c)
    && (carTyp c != 7 || (byteAt (carPayload c) 0).getLsbD b.val)

/-- Deliver a car to one booth (R324). -/
def deliverTo (c : Bytes) (b : Booth) (s : State) : State :=
  let n := (s.booth b).carCount
  let body := c.take (32 + carLen c)
  let w := writeRecord b (0xF0000 + n % 16 * 0x1000) (leBytes 4 n ++ leBytes 2 body.length ++ zeros 2 ++ body) s
  if w.2 then raiseTo .carDelivered b (w.1.onBooth b fun x => { x with carCount := (n + 1) % 2 ^ 32 }) else w.1

def deliverCar (c : Bytes) : List Booth → State → State
  | [], s => s
  | b :: bs, s => deliverCar c bs (if takesCar s c b then deliverTo c b s else s)

/-! ### Types -/

/-- TIME (R318, R354, R21, R95 item 3). -/
def applyTime (q : QCar) (s : State) : State :=
  let p := carPayload q.bytes
  let ref := if q.cmd.isSome then instantBack s (min s.ao.rtc (Config.injectAge s.free)) else q.ref
  let s1 := applyBeacon (beaconOf p) ref s.draw
  let s2 := s1.onCar fun c => { c with
    watermarks := Vector.ofFn fun i : Fin 11 => if i.val = 0 then 0 else leField p (16 + 4 * i.val) 4 }
  let s3 := commitCar q (if s.nv.deltaSeq < leField p 32 4 then setBehind s2 else s2)
  if s3.boot.trial && s3.boot.selfConfirm && s3.phase == .running then (confirmTrial s3).2 else s3

/-- MAP (R319). -/
def applyMap (q : QCar) (s : State) : State :=
  let p := carPayload q.bytes
  let m := (byteAt p 0).toNat
  commitCar q (s.onNv fun n => { n with
    masts := (records 8 m (p.drop 4)).map fun e =>
      { mast := BitVec.ofNat 16 (leField e 0 2), chan := BitVec.ofNat 16 (leField e 2 2), mode := byteAt e 4 }
    fmList := (records 4 (byteAt p 1).toNat (p.drop (4 + 8 * m))).map fun e =>
      { pi := BitVec.ofNat 16 (leField e 0 2), freq := leField e 2 2 } })

/-- The EPOCH entry of this device's lock group: key epoch and wrapped key (R320). -/
def epochEntry (s : State) (p : Bytes) : Option (Nat × Bytes) :=
  if cellWritten s 4 then
    ((records 44 (byteAt p 1).toNat (p.drop 4)).find? fun e => leField e 0 2 = lockGroup s).map fun e =>
      (leField e 2 2, e.drop 4)
  else none

/-- The general AES engine's turn for a car: the operation it has started runs to its end, and the waiting ones follow the
car's (R193, log 54). -/
def aesTurn (s : State) : State :=
  let q := s.keep.aes.queue
  (finishJob .aes (s.onKeep fun k => { k with aes := { k.aes with queue := [] } })).onKeep fun k =>
    { k with aes := { k.aes with queue := q } }

/-- What the Keep does with the entry (R204): none when the unwrap fails. A slot 2 at key epoch 0xFFFF takes no further
entry, under a new `SP_LOCK_GROUP` number too: R204 compares with slot 2 alone and nothing in the spec clears it; that
R14's 'new number' changes nothing here is the model's choice (log 46). -/
def applyEpochKey (e : Nat × Bytes) (s0 : State) : Option State :=
  let cur := keySlot s0 2
  if cur.typ = .empty ∨ cur.epoch.toNat < e.1 then
    let s := aesTurn s0
    match (if (keySlot s 1).typ = .wrap256 then keyUnwrap (keySlot s 1).key e.2 else none) with
    | none => none
    | some key =>
      let s1 := if cur.typ = .empty then s else writeSlot 3 .epoch256 cur.key cur.epoch true s
      some (aesNext (raise .epochNew (writeSlot 2 .epoch256 key (BitVec.ofNat 16 e.1) true s1)))
  else if e.1 < cur.epoch.toNat then some (count .duplicate s0) else some s0

/-- A new base (R320). -/
def rebase (c : Bytes) (s : State) : State :=
  (s.onNv fun n => { n with carEpoch := BitVec.ofNat 16 (carEpochOf c), seqs := [], deltaSeq := 0, snapDone := 0 }).onCar
    fun x => { x with snap := none, frozenTold := 0 }

/-- EPOCH (R204, R320): none when the unwrap fails. -/
def applyEpoch (q : QCar) (s : State) : Option State :=
  let r := match epochEntry s (carPayload q.bytes) with | none => some s | some e => applyEpochKey e s
  r.map fun s1 => commitCar q (if newBase q.bytes then rebase q.bytes s1 else s1)

/-- REVOKE_DELTA (R321): none when its sequence leaves a gap. -/
def applyDelta (q : QCar) (s : State) : Option State :=
  let p := carPayload q.bytes
  let a := leField p 0 2
  let adds := idsOf a (p.drop 4)
  let rems := idsOf (leField p 2 2) (p.drop (4 + 6 * a))
  if s.nv.deltaSeq + 2 ≤ carSeq q.bytes then none
  else
    let s1 := markSeen adds (placeIds adds s).1
    let s2 := commitCar q (s1.onNv fun n => { n with pendRemove := rems })
    some ((removeIds rems s2).onNv fun n => { n with pendRemove := [] })

/-- REVOKE_SNAPSHOT (R322): a part is added; the last one has every bucket with an uncorrectable word rewritten, then starts the
sweep (R385 item 1). -/
def applySnap (q : QCar) (s : State) : State :=
  let p := carPayload q.bytes
  let ids := idsOf (leField p 8 2) (p.drop 12)
  let fresh : Snap := { seq := carSeq q.bytes, deltaSeq := leField p 0 4, count := leField p 6 2, held := [], seen := []
                        allPlaced := true, sweeping := false }
  let sn := match s.car.snap with | some x => if x.seq < carSeq q.bytes then fresh else x | none => fresh
  let r := placeIds ids s
  let held := carSub q.bytes :: sn.held
  let sweep := decide (sn.count ≤ held.length)
  let sn1 : Snap := { sn with
    held := held, seen := ids ++ sn.seen, allPlaced := sn.allPlaced && r.2
    sweeping := sweep }
  let s1 := if sweep then repair .phys revBase (revEnd - revBase) r.1 else r.1
  commitCar q (s1.onCar fun c => { c with snap := some sn1 })

/-- The sweep ends (R322 item 5). -/
def sweepDone (s : State) : State :=
  match s.car.snap with
  | some sn =>
    if sn.sweeping then
      let s1 := (keepIds (sn.seen.contains ·) s).onNv fun n => { n with
        deltaSeq := sn.deltaSeq, snapDone := sn.seq, behind := false
        revFull := n.revFull && !sn.allPlaced
        seqs := n.seqs.filter (·.typ ≠ 4) }
      raise .revokeCurrent (s1.onCar fun c => { c with snap := none })
    else s
  | none => s

/-- The 24 bytes of a schedule from its four intervals (Table 11-10). -/
def schedBytes : List Bytes → Bytes
  | [] => []
  | e :: es => e ++ zeros 4 ++ schedBytes es

/-- GRANT: the whole page at once (R323, R408). -/
def applyGrant (q : QCar) (s : State) : State :=
  let g := carSub q.bytes
  let d := (carPayload q.bytes).drop 4
  let base := if g ≤ 127 then rightsBase + 2048 * g else schedBase + 24 * 127 * (g - 128)
  let data := if g ≤ 127 then d else schedBytes (records 20 127 d)
  commitCar q (repair .phys base data.length { s with mem := memWrite s.mem base data })

/-- An IMAGE chunk of an old version, of a version below the one being loaded, or for a slot that R94 refuses (R326). -/
def imageRefused (s : State) (c : Bytes) : Bool :=
  let v := leField (carPayload c) 0 4
  decide (v ≤ s.boot.version.toNat ∨ v < versionFloor s) || !slotWritable s (inactive s) .cars
    || match s.nv.imgLoad with
      | none => false
      | some l => decide (v < l.version)

/-- The check of an image that came in chunks starts (R94, R326): every chunk of `total` bytes is held, or the header is whole
and either every chunk up to the image's last byte is held or the image has no valid end (log 56). -/
def chunksDone (s : State) (sl : Slot) (total : Nat) (held : List Nat) : Bool :=
  let n := slotField s sl 16 4
  decide (chunkCount total ≤ held.length)
    || (held.contains 0 && (!bodyLenOk n || (List.range (chunkCount (320 + n))).all held.contains))

/-- IMAGE: one chunk (R326). -/
def applyImage (q : QCar) (s : State) : State :=
  let p := carPayload q.bytes
  let v := leField p 0 4
  let total := leField p 4 4
  let sl := inactive s
  let old := match s.nv.imgLoad with | some l => if l.version = v ∧ l.total = total then some l else none | none => none
  let s1 := beginLoad sl .cars (match old with | some _ => s | none => setSlot sl .empty s)
  let s2 := loadBytes sl (3840 * carSub q.bytes) (p.drop 12) s1
  let held := carSub q.bytes :: (match old with | some l => l.held | none => [])
  let s3 := commitCar q (s2.onNv fun n => { n with imgLoad := some { version := v, total := total, held := held } })
  if chunksDone s3 sl total held then startCheck sl s3 else s3

/-- SCHEDULE (R327). -/
def applySchedule (q : QCar) (s : State) : State :=
  let p := carPayload q.bytes
  let es : List SchedEnt := (records 12 (leField p 10 2) (p.drop 12)).map fun e =>
    { mast := BitVec.ofNat 16 (leField e 0 2), chan := BitVec.ofNat 16 (leField e 2 2), typ := (byteAt e 4).toNat
      everyCycle := (byteAt e 5).getLsbD 0, offMs := leField e 6 4, durMs := leField e 10 2, cycleMs := leField p 0 4
      startS := leField p 4 4, startMs := leField p 8 2 }
  commitCar q (s.onNv fun n => { n with
    sched := n.sched.filter (fun e => !es.any fun x => x.mast = e.mast) ++ es })

/-! ### REMOTE -/

/-- Argument length of a REMOTE command (Table 15-5); a spore write carries a cell and a value. -/
def remoteLenOk (code : Byte) (n : Nat) : Option Bool :=
  if code = 1 then some (n == 4) else if code = 2 then some (n == 0)
  else if code = 3 ∨ code = 4 then some (n == 72) else if code = 5 ∨ code = 6 then some (n == 32)
  else if code = 7 then some (decide (2 ≤ n)) else if code = 8 then some (n == 4) else none

/-- A spore write of a REMOTE car, in the states that Table 10-4 gives it (R205 to R207). -/
def remoteSpore (cell : Nat) (states : List LifeCycle) (v : Bytes) (s : State) : Status × State :=
  if !states.contains (lifeCycle s) then (.lifecycle, s)
  else if v.length ≠ (match cellKind cell with | .budgeted n _ => n | _ => 0) then (.badParam, s)
  else if v = cellValue s cell then (.ok, s)
  else if valueOk cell v = false then (.badParam, s)
  else if cellLeft s cell = 0 then (.sporeSpent, raise (spentEvent cell) s)
  else (.ok, sporeCommit cell v srcRemote s)

/-- A signed life-cycle command of a REMOTE car; none when it names another device (R102, R405). -/
def remoteLife (target : LifeCycle) (a : Bytes) (s : State) : Option (Status × State) :=
  if a.take 8 ≠ idBytes then none
  else
    match lifeStatus s target (a.drop 8) with
    | .ok => some (.ok, moveLife target s)
    | st => some (st, s)

/-- Key-change commands (R16, R405): `signed` says that the car carries `OWNER_SIG`, for a new owner key by the key that is
the owner's when the command runs (Table 15-5). -/
def remoteKey (owner signed : Bool) (key : Bytes) (s : State) : Status × State :=
  if !signed then (.authFail, count .sigReject s)
  else
    let r := remoteSpore (if owner then 2 else 3) [.provisioned, .field] (sha256 key) s
    if owner && r.1 == .ok then (r.1, r.2.onBoot fun b => { b with ownerKey := some key }) else r

/-- One REMOTE command (Table 15-5), `present` where the car's owner key is the present one: its status, or none when it is skipped silently. A command whose host command is not
marked H is answered as in hold-safe there (R325, R142). -/
def remoteCmd (signed present : Bool) (code : Byte) (a : Bytes) (s : State) : Option (Status × State) :=
  match remoteLenOk code a.length with
  | none => some (.badOpcode, s)
  | some false => some (.badLength, s)
  | some true =>
    if s.phase = .holdSafe ∧ (code = 1 ∨ code = 2 ∨ code = 3 ∨ code = 8) then some (.holdSafe, s)
    else if code = 1 then some (activate (leField a 0 4) s)
    else if code = 2 then some (if s.boot.trial then (.ok, (confirmTrial s).2) else (.badParam, s))
    else if code = 3 then remoteLife .field a s
    else if code = 4 then remoteLife .retired a s
    else if code = 5 then some (remoteKey false signed a s)
    else if code = 6 then some (remoteKey true (signed && present) a s)
    else if code = 7 then
      let cell := (byteAt a 0).toNat
      let v := a.drop 1
      if cell = 4 ∨ cell = 5 then some (remoteSpore cell [.provisioned, .field] v s)
      else if cell = 8 ∨ cell = 9 ∨ cell = 10 then some (remoteSpore cell [.field] v s)
      else some (.badParam, s)
    else
      let action := (byteAt a 0).toNat
      let ms := leField a 2 2
      if !latchParams action ms || byteAt a 1 != 0 then some (.badParam, s)
      else if !restOk s then some (.restFloat, s)
      else some (.ok, latchAction action ms srcRemote s)

/-- Run the commands in order, logging each status (R325). A transition that completes resets the device. -/
def runRemote (signed : Bool) (key : Bytes) : List (Byte × Bytes) → State → State
  | [], s => s
  | (code, a) :: cs, s =>
    match remoteCmd signed (sha256 key == ownerHash s) code a s with
    | none => runRemote signed key cs s
    | some (st, s1) =>
      if s1.phase = .reset then s1
      else runRemote signed key cs (logMake 0x13 srcRemote 0 [code, st.code] s1)

/-- REMOTE: the commit, then the commands (R317, R325). -/
def applyRemote (q : QCar) (s : State) : State :=
  let p := carPayload q.bytes
  runRemote (carOwnerSig q.bytes) (carOwnKey q.bytes) (remoteCmds (byteAt p 0).toNat (p.drop 2)) (commitCar q s)

/-! ### Application -/

/-- Outcome of an application: applied, or dropped with a reason and a counter. -/
inductive CarResult where
  | applied (s : State)
  | dropped (reason : Byte) (counter : Option Counter) (s : State)

/-- Apply a verified car (R317 to R327). -/
def applyCar (q : QCar) (s : State) : CarResult :=
  match carTyp q.bytes with
  | 1 => .applied (applyTime q s)
  | 2 => .applied (applyMap q s)
  | 3 => match applyEpoch q s with | some t => .applied t | none => .dropped 0x02 (some .sigReject) s
  | 4 => match applyDelta q s with | some t => .applied t | none => .dropped 0x06 none (setBehind s)
  | 5 => .applied (applySnap q s)
  | 6 => .applied (applyGrant q s)
  | 7 => .applied (commitCar q s)
  | 8 => .applied (applyRemote q s)
  | 9 => if imageRefused s q.bytes then .dropped 0x04 (some .scope) s else .applied (applyImage q s)
  | _ => .applied (applySchedule q s)

/-- Answer the `DC_INJECT` that waits for a car; a reset has taken the command with it. -/
def answerInject (q : QCar) (st : Status) (payload : Bytes) (s : State) : State :=
  match q.cmd with
  | some (b, t) => if s.phase = .reset then s else replyTo b t st payload s
  | none => s

def countOpt (c : Option Counter) (s : State) : State := match c with | some k => count k s | none => s

/-- A car is dropped after verification. -/
def rejectCar (q : QCar) (reason : Byte) (c : Option Counter) (s : State) : State :=
  answerInject q .carReject [reason] (countOpt c s)

/-- EV_SEQ_FROZEN, once per type while it is frozen (Table 15-2). -/
def tellFrozen (c : Bytes) (s : State) : State :=
  if storedSeq s (carTyp c) (carPage c) = 0xFFFFFFFF ∧ s.car.frozenTold.getLsbD (carTyp c) = false then
    raise .seqFrozen (s.onCar fun x => { x with frozenTold := x.frozenTold ||| (1#16 <<< carTyp c) })
  else s

/-- Verification ends: signatures, checks 5 and 6 again, application, delivery (R317). -/
def judgeCar (q : QCar) (s : State) : State :=
  if !carSigsOk q.bytes then rejectCar q 0x02 (some .sigReject) s
  else
    match carOrder s true q.bytes with
    | .duplicate => rejectCar q 0x03 (some .duplicate) s
    | .rival => rejectCar q 0x03 (some .rival) s
    | .frozen => rejectCar q 0x06 (some .seqFrozen) (tellFrozen q.bytes s)
    | .ok =>
      match applyCar q s with
      | .applied t => answerInject q .ok [] (deliverCar q.bytes allBooths (appliedIn (carTyp q.bytes) t))
      | .dropped r c t => rejectCar q r c t

/-- Words whose uncorrectable error the Keep meets: its own space, and the spore shadow with its records (R85, R383). -/
def keepWord (a : Nat) : Bool := decide (0x20000000 ≤ a ∧ a < 0x30000000) || decide (0x407F0000 ≤ a ∧ a < 0x40800000)

/-- Address of schedule `n`, 1 to 254 (R408). -/
def schedAddr (n : Nat) : Nat := schedBase + 24 * (n - 1)

/-- The GRANT page that holds an address (R323, R385). -/
def grantPage (a : Nat) : Nat :=
  if a < recentBase then (a - rightsBase) / 2048 else if a < schedAddr 128 then 128 else 129

/-- The effects of an uncorrectable word that the device reads (R383 to R385). A word of booth memory, of the table region or
of an image takes effect where its owner reads it. -/
def deviceHit (sp : EccSpace) (a : Nat) (s : State) : State :=
  if sp ≠ .phys then (if sp = .routine ∨ sp = .window then s else rebuildWord sp a s)
  else if keepWord a then reset .keepFault s
  else if !deviceWord a then s
  else if revBase ≤ a ∧ a < revEnd then setBehind (deviceEcc sp a s)
  else if rightsBase ≤ a ∧ a < recentBase ∨ schedBase ≤ a ∧ a < schedAddr 255 then
    putSeq 6 (grantPage a) 0 [] (deviceEcc sp a s)
  else if recentBase ≤ a ∧ a < schedBase ∨ 0x40400000 ≤ a ∧ a < 0x40500000 then deviceEcc sp a s
  else rebuildWord sp a s

/-- The effects of the uncorrectable words at some addresses, in order, while no reset ends the work. -/
def deviceHits : List (EccSpace × Nat) → State → State
  | [], s => s
  | x :: xs, s => if s.phase = .reset then s else deviceHits xs (deviceHit x.1 x.2 s)

/-- Memory errors that a row's work meets (R377, R383 to R385). -/
def readErrors (hits : List EccHit) (s : State) : State :=
  deviceHits ((byBlock (hits.filter (·.hard))).map fun h => (h.space, wordOf h.addr)) (applyHits hits s)

/-- The Keep ends the verification of the car at the head of the queue (R193, R317). -/
def carVerified (env : CarEnv) (s : State) : State :=
  match s.keep.hash.cur, s.car.queue with
  | some .car, q :: qs =>
    let s1 := readErrors env.ecc (s.onCar fun c => { c with queue := qs })
    let s2 := if s1.phase = .reset then s1 else judgeCar q s1
    if s2.phase = .reset then s2 else freeEngine .hash s2
  | _, _ => s

/-! ### The queue -/

/-- The two cars are of one type and page, or parts of snapshots, and the first is later (R314, R316). -/
def laterCar (a b : Bytes) : Bool :=
  decide (carTyp a = carTyp b ∧ carPage a = carPage b)
    && (decide (carEpochOf b < carEpochOf a)
        || (decide (carEpochOf a = carEpochOf b) && decide (carSeq b < carSeq a)))

/-- Place a car ahead of every queued car that is later (R316). -/
def insertCar (q : QCar) : List QCar → List QCar
  | [] => [q]
  | x :: xs => if laterCar x.bytes q.bytes then q :: x :: xs else x :: insertCar q xs

/-- The queue with a car placed; the car being verified stays at the head. -/
def queueCar (q : QCar) (s : State) : State :=
  hashNext (s.onCar fun c =>
    match s.keep.hash.cur, c.queue with
    | some .car, x :: xs => { c with queue := x :: insertCar q xs }
    | _, qs => { c with queue := insertCar q qs })

/-- A dropped car (Table 15-2): its counter, EV_CAR_OVERRUN (R39), EV_SEQ_FROZEN once per type while frozen. -/
def dropCar (c : Bytes) (d : CarDrop) (s : State) : State :=
  let s1 := countOpt d.counter s
  let s2 := raiseIf (d.counter == some .overrun) .carOverrun s1
  if d.counter = some .seqFrozen then tellFrozen c s2 else s2

/-- A car has been reassembled from frames (R315). Its frames were of this property, so a car that names another one breaks
Table 15-1 and is malformed (R311, R313). -/
def carComplete (q : QCar) (s : State) : State :=
  let s1 := heardCar q.bytes q.mast q.ref.tick s
  let foreign := decide (leField q.bytes 4 4 ≠ propertyId s) && (lifeCycle s == .provisioned || lifeCycle s == .field)
  match (if foreign then carDrop 0x07 .sigReject else carCheck s q.bytes) with
  | some d => dropCar q.bytes d s1
  | none => queueCar q s1

/-! ### Commands -/

/-- SNAPSHOT_SWEEP_DONE (R322). -/
def execSnapshotSweepDone (s : State) : Host.Outcome State Fault Refusal :=
  .next (if alive s then sweepDone s else s)

end Sys2Proof.Machine
end

