-- ==== Sys2Proof/Machine/Pbus.lean ====
section
/-! DEFINITION. Credential intake (R213, R134 to R136) and the PBUS (R127 to R133). -/

namespace Sys2Proof.Machine

/-! ### Intake -/

/-- The credential joins the open window, or opens one (R224). -/
def joinWindow : List Win → List Win
  | [] => [{ members := [], expect := 1, closed := false, latchAt := 0, revSeen := false }]
  | [w] =>
    if w.closed then [w, { members := [], expect := 1, closed := false, latchAt := 0, revSeen := false }]
    else [{ w with expect := w.expect + 1 }]
  | w :: ws => w :: joinWindow ws

/-- Intake of a credential completes (R213, R215). -/
def intakeCred (c : Cred) (s : State) : State :=
  s.onVd fun v => { v with intake := v.intake ++ [c], windows := joinWindow v.windows }

/-- CRED_SUBMIT: the reply comes with the verdict (R213). -/
def credSubmitBody (p : Packet) (s : State) : State :=
  intakeCred { token := p.payload, via := .host p.src.booth p.tag } s

/-- The target at 0x3C answers (Table 3-6, R127, R132, R133). -/
def targetUp (s : State) : Bool :=
  s.phase == .running && s.pb.cfg.getLsbD 8 && !s.pb.disabled && !s.pwr.gateStat.getLsbD 5

def setResult (r : Byte) (s : State) : State := s.onVd fun v => { v with result := r }

/-- A report that passes R134. -/
def reportGood (d : Bytes) : Bool :=
  decide (d.length = 36) && byteAt d 0 == 1 && decide ((byteAt d 1).toNat ≤ 3)
    && decide (crc16 (d.take 34) = BitVec.ofNat 16 (leField d 34 2))

/-- A write at 0x3C (R134 to R136). A 37th byte, which is NACKed, makes the write one of more than 36 bytes: it is discarded
(log 50). -/
def credReport (d : Bytes) (s : State) : State :=
  if !targetUp s then setAck false s
  else if 4 ≤ intakeReports s then setAck false (setResult 5 s)
  else
    let s1 := setAck (decide (d.length ≤ 36)) (wake s)
    if reportGood d then
      setResult 1 (intakeCred { token := sub d 2 32, via := .pbus (byteAt d 1) } s1)
    else
      setResult 4 (raise .pbusBadreport (s1.onPb fun p => { p with badReports := satInc 255 p.badReports }))

/-- A read of `n` bytes at 0x3C (R136): no read changes the result, so 0x05 stands until the next report (log 50). -/
def resultRead (n : Nat) (s : State) : State :=
  if targetUp s then send (List.replicate n s.vd.result) (wake s) else setAck false (s.onHb fun h => { h with out := [] })

/-- CRED_WAKE changes while VDDIO is present: `DOOR_IN` shows it, and an assertion ungates the PBUS engine (R133, R214,
log 51). -/
def credWakes (asserted : Bool) (s : State) : State :=
  if s.phase = .unpowered ∨ s.pwr.vddioOk = false then s
  else
    let s1 := s.onDoor fun d => { d with credWake := asserted }
    if asserted then wakePbus s1 else s1

/-- 20 ms of sleep without PBUS activity gate the engine (R133). -/
def idleGate (s : State) : State :=
  if s.phase == .running && s.hb.asleep && s.pb.xfer.isNone then shutGate 5 s else s

/-! ### Transfers -/

/-- A transfer ends with its reply; the next one is due. -/
def endXfer (x : Xfer) (st : Status) (payload : Bytes) (s : State) : State :=
  nextXfer (replyTo x.booth x.tag st payload s)

/-- An attempt loses arbitration (R129). -/
def xferLost (x : Xfer) (s : State) : State :=
  let s1 := s.onPb fun p => { p with arbLost := satInc 255 p.arbLost }
  if 8 ≤ x.lost + 1 then raise .pbusArb (endXfer x .pbusArb [] s1)
  else
    let y : Xfer := { x with lost := x.lost + 1, onBus := false }
    s1.onPb fun p => { p with xfer := some y }

/-- What an attempt meets on the bus (R129, R131). -/
def xferOutcome (x : Xfer) (o : PbusOutcome) (s : State) : State :=
  match o with
  | .done read => endXfer x .ok (padTo x.count read) s
  | .addrNack => endXfer x .pbusNack [] s
  | .dataNack k => endXfer x .pbusNack [k] s
  | .arbLost => xferLost x s
  | .stretching =>
    let y : Xfer := { x with onBus := true }
    s.onPb fun p => { p with xfer := some y }

/-- One attempt: a bus clear first where PSDA was found low (R131), then the transfer; a disabled bus, or controller
transfers disabled, answer `ST_PBUS_DOWN` (R127, R132). -/
def runXfer (x : Xfer) (run : PbusRun) (s : State) : State :=
  if s.pb.disabled || !s.pb.cfg.getLsbD 9 then endXfer x .pbusDown [] s
  else
    let s1 := match run.clearFirst with | some r => busClear r s | none => s
    if s1.pb.disabled then endXfer x .pbusDown [] s1 else xferOutcome x run.out s1

/-- A transfer starts on an engine that is released; else it waits for the pre-raise (R28, R133). -/
def beginXfer (x : Xfer) (run : PbusRun) (s : State) : State :=
  if gateOpen s 5 then runXfer x run s
  else
    let y : Xfer := { x with wait := some run }
    s.onPb fun p => { p with xfer := some y }

/-- A booth 1 to 7 owns a peripheral (R128). -/
def ownsPeripheral (s : State) (b : Booth) (a : Byte) : Bool :=
  b == 0 || s.pb.own.toList.any fun w =>
    w.getLsbD 15 && decide (bits w 0 7 = a.toNat) && decide (bits w 8 3 = b.val)

/-- PBUS_XFER (R128). -/
def pbusXferBody (p : Packet) (run : PbusRun) (s : State) : State :=
  let a := byteAt p.payload 0
  let data := p.payload.drop 4
  if byteAt p.payload 3 ≠ 0 ∨ data.length ≠ (byteAt p.payload 1).toNat ∨ 128 ≤ a.toNat ∨ a = 0x3C then
    answer p .badParam [] s
  else if !ownsPeripheral s p.src.booth a then answer p .priv [] s
  else
    let x : Xfer := { booth := p.src.booth, tag := p.tag, addr := a, data := data
                      count := (byteAt p.payload 2).toNat, lost := 0, onBus := false, wait := none }
    if s.pb.xfer.isSome then s.onPb fun b => { b with queue := b.queue ++ [x] }
    else beginXfer x run (openGate 5 (s.onPb fun b => { b with xfer := some x }))

/-- The back-off has passed, or the transfer's turn has come: the whole transfer is tried (R129). -/
def pbusRetry (run : PbusRun) (s : State) : State :=
  match s.pb.xfer with
  | some x => if !x.onBus && x.wait.isNone && s.phase == .running then beginXfer x run s else s
  | none => s

/-- A peripheral stretches beyond `STRETCH_MS` (R131). -/
def pbusTimesOut (clear : ClearResult) (s : State) : State :=
  match s.pb.xfer with
  | some x => if x.onBus && alive s then raise .pbusTimeout (endXfer x .pbusTimeout [] (busClear clear s)) else s
  | none => s

/-- PBUS transfers need the PBUS engine (Table 4-7 bit 5). -/
def needsPbus (_ : State) : Needs := { juggler := false, gates := 0x020, power := false }

/-! ### Commands -/

def execCredSubmit (p : Packet) (s : State) : Host.Outcome State Fault Refusal :=
  .next (simpleCommand op_credSubmit p (credSubmitBody p) s)
def execCredReport (data : Bytes) (s : State) : Host.Outcome State Fault Refusal := .next (credReport data s)
def execPbusResultRead (count : Nat) (s : State) : Host.Outcome State Fault Refusal := .next (resultRead count s)
def execCredWake (asserted : Bool) (s : State) : Host.Outcome State Fault Refusal := .next (credWakes asserted s)
def execPbusIdleGate (s : State) : Host.Outcome State Fault Refusal := .next (idleGate s)
def execPbusXfer (p : Packet) (run : PbusRun) (s : State) : Host.Outcome State Fault Refusal :=
  .next (command op_pbusXfer needsPbus p (pbusXferBody p run) s)
def execPbusRetry (run : PbusRun) (s : State) : Host.Outcome State Fault Refusal := .next (pbusRetry run s)
def execPbusTimeout (clear : ClearResult) (s : State) : Host.Outcome State Fault Refusal :=
  .next (pbusTimesOut clear s)

end Sys2Proof.Machine
end

