-- ==== Sys2Proof/Machine/Verdict.lean ====
section
/-! DEFINITION. The verdict engine: the checks of Table 11-4 (R211 to R223), the re-run of R203, the window rules of
Table 11-6 (R224, R225) and the verdict's outputs (R216, R217, R226). -/

namespace Sys2Proof.Machine

/-! ### Token fields (R211) -/

def tokFlag (t : Bytes) (i : Nat) : Bool := (byteAt t 1).getLsbD i
def tokStatic (t : Bytes) : Bool := tokFlag t 0
def tokEmergency (t : Bytes) : Bool := tokFlag t 1
def tokId (t : Bytes) : Bytes := sub t 2 6
def tokGroup (t : Bytes) : Nat := leField t 8 2
def tokScope (t : Bytes) : Nat := leField t 10 2
def tokFrom (t : Bytes) : Nat := leField t 12 4
def tokUntil (t : Bytes) : Nat := leField t 16 4
def tokEpoch (t : Bytes) : Nat := leField t 20 2
def tokCounter (t : Bytes) : Nat := leField t 22 2

/-! ### Checks 1 to 5 -/

/-- Check 2 of Table 11-4. -/
def formatOk (t : Bytes) : Bool :=
  byteAt t 0 == 1 && decide ((byteAt t 1).toNat < 4) && ofLe (tokId t) != 0 && tokScope t != 0
    && decide (tokFrom t < tokUntil t) && tokEpoch t != 0

/-- The epoch slot that R14 selects: 2, or 3 for the previous epoch. -/
def epochSlot (s : State) (t : Bytes) : Nat :=
  if (keySlot s 3).typ ≠ .empty ∧ (keySlot s 3).epoch.toNat = tokEpoch t ∧ (keySlot s 2).epoch.toNat ≠ tokEpoch t then 3
  else 2

/-- Check 3: while slot 2 holds a key, the epoch is the current or the previous one (R14). -/
def epochKnown (s : State) (t : Bytes) : Bool :=
  (keySlot s 2).typ == .empty || decide ((keySlot s 2).epoch.toNat = tokEpoch t)
    || (decide ((keySlot s 3).typ ≠ .empty) && decide ((keySlot s 3).epoch.toNat = tokEpoch t))

/-- Checks 1 to 4, in order. -/
def earlyCode (s : State) (t : Bytes) : Option Byte :=
  if lifeCycle s = .blank ∨ lifeCycle s = .retired ∨ cellWritten s 5 = false ∨ cellWritten s 4 = false then some 0x11
  else if !formatOk t then some 0x10
  else if !epochKnown s t then some 0x12
  else if (keySlot s 2).typ = .empty then some 0x13
  else none

/-- Check 5: the tag under the token key (R195, R212). -/
def tagOk (s : State) (t : Bytes) : Bool :=
  let key := kdf (keySlot s (epochSlot s t)).key [0x54, 0x4F, 0x4B] (sub t 8 2 ++ sub t 20 2) 16
  decide ((cmac key (t.take 24)).take 8 = sub t 24 8)

/-! ### Lookups -/

/-- Address of a group's rule (R408). -/
def ruleAddr (g : Nat) : Nat := rightsBase + 4 * g

/-- A hard error met in a range by this command, or held there from before. -/
def hitIn (s : State) (hits : List EccHit) (a n : Nat) : Bool :=
  hits.any (fun h => h.hard && h.space == .phys && decide (a < h.addr + 8) && decide (h.addr < a + n))
    || (!s.err.bad.isEmpty && (firstBad s .phys a n).isSome)

/-- An error that the lookup in the recent table meets: one met by this command, or the entry of this ID is bad
(R385 item 3). -/
def recentHit (s : State) (hits : List EccHit) (id : Bytes) : Bool :=
  hits.any (fun h => h.hard && h.space == .phys && decide (recentBase ≤ h.addr ∧ h.addr < schedBase))
    || (match recentFind s id with | some i => isBad s .phys (recentBase + 8 * i) | none => false)

/-- Both buckets of an ID, and the region of the set, for errors that a lookup meets (R219, R385 item 1). -/
def revHit (s : State) (hits : List EccHit) (id : Bytes) : Bool :=
  let b (w : Bool) : Nat := revBase + 64 * (Config.revBucket s.nv.revHashKey (BitVec.ofNat 48 (ofLe id)) w).toNat
  hits.any (fun h => h.hard && h.space == .phys && decide (revBase ≤ h.addr ∧ h.addr < revEnd))
    || (!s.err.bad.isEmpty && ((firstBad s .phys (b false) 64).isSome || (firstBad s .phys (b true) 64).isSome))

/-- What the lookups of step 2b find (Table 11-3), each with the memory errors of R385. -/
structure Looked where
  revoked : Bool
  rule : Bytes
  inside : Bool
  replay : Bool
deriving DecidableEq, Repr

/-- A local time, in minutes from 2024-01-01, is inside an interval (Table 11-5, R222). -/
def insideInterval (m : Int) (e : Bytes) : Bool :=
  let day := (m / 1440 % 7).toNat
  let mi := (m % 1440).toNat
  (byteAt e 0).getLsbD day && decide (leField e 1 2 ≤ mi) && decide (mi < leField e 3 2)

/-- Local minutes from 2024-01-01 (R222, R354). -/
def localMinutes (s : State) : Int := (devSec s / 60 : Nat) + s.ao.localOfs

/-- The rule's schedule admits the local time (check 13). -/
def insideSchedule (st s : State) (n : Nat) : Bool :=
  n == 255 || (decide (n ≠ 0) && (records 5 4 (memRead s.mem (schedAddr n) 20)).any (insideInterval (localMinutes st)))

/-- The recent table refuses the counter (R223). -/
def replayed (s : State) (t : Bytes) : Bool :=
  tokCounter t == 0xFFFF
    || (!tokStatic t && (match recentFind s (tokId t) with
        | some i => decide (tokCounter t ≤ leField (recentEntry s i) 6 2)
        | none => false))

/-- The lookups: `st` gives the time, `s` the tables, `extra` the IDs a car in progress treats as revoked (R221). -/
def lookUp (st s : State) (extra : List Nat) (hits : List EccHit) (t : Bytes) : Looked :=
  let badRule := hitIn s hits (ruleAddr (tokGroup t)) 4
  let rule := if badRule then zeros 4 else memRead s.mem (ruleAddr (tokGroup t)) 4
  let n := (byteAt rule 0).toNat
  let badSched := decide (1 ≤ n ∧ n ≤ 254) && hitIn s hits (schedAddr n) 24
  { revoked := (s.nv.revoked ++ extra).contains (ofLe (tokId t)) || revHit s hits (tokId t)
    rule := rule
    inside := !badSched && insideSchedule st s n
    replay := replayed s t || (!tokStatic t && recentHit s hits (tokId t)) }

/-- Checks 6 to 16, in order, for a token past check 5. -/
def lateCode (st s : State) (l : Looked) (t : Bytes) : Byte :=
  let e := tokEmergency t
  let flags := byteAt l.rule 1
  if l.revoked then 0x15
  else if s.nv.revFull && !e then 0x20
  else if tokScope t != 0xFFFF && tokScope t != doorId s then 0x17
  else if byteAt l.rule 0 == 0 || (e && !flags.getLsbD 1) then 0x18
  else if timeUnsure st then 0x1A
  else if devSec st < tokFrom t then 0x1C
  else if tokUntil t != 0xFFFFFFFF && decide (tokUntil t ≤ devSec st) then 0x1B
  else if !e && !l.inside then 0x19
  else if l.replay then 0x1D
  else if !e && s.door.privacy && !flags.getLsbD 0 then 0x1E
  else if !e && logFull s && !logSealed s then 0x1F
  else if e then 0x01 else 0x00

/-- The words of a read that are bad, by word address. -/
def badWords (s : State) (a n : Nat) : List Nat :=
  ((List.range ((wordOf (a + n - 1) - wordOf a) / 8 + 1)).map fun i => wordOf a + 8 * i).filter (isBad s .phys)

/-- The addresses that the lookups read, for errors held from before. -/
def readAddrs (s : State) (t : Bytes) : List Nat :=
  let rule := memRead s.mem (ruleAddr (tokGroup t)) 4
  let n := (byteAt rule 0).toNat
  let b (w : Bool) : Nat :=
    revBase + 64 * (Config.revBucket s.nv.revHashKey (BitVec.ofNat 48 (ofLe (tokId t))) w).toNat
  badWords s (ruleAddr (tokGroup t)) 4
    ++ (if 1 ≤ n ∧ n ≤ 254 ∧ tokEmergency t = false then badWords s (schedAddr n) 24 else [])
    ++ badWords s (b false) 64 ++ badWords s (b true) 64

/-- Every error that the lookups meet takes effect (R377, R383 to R385). -/
def lookupHits (hits : List EccHit) (t : Bytes) (s : State) : State :=
  let s1 := applyHits hits s
  if s1.err.bad.isEmpty then s1
  else
    deviceHits
      (((byBlock (hits.filter (·.hard))).map (fun h => (h.space, wordOf h.addr))
        ++ (readAddrs s1 t).map fun a => (EccSpace.phys, a)).eraseDups) s1

/-! ### The window -/

/-- Codes of checks 1 to 5: such a token is never a repeat (R224). -/
def earlyFail (c : Byte) : Bool := c == 0x11 || c == 0x10 || c == 0x12 || c == 0x13 || c == 0x14

/-- The first window with a credential still to judge. -/
def judgedWin : List Win → Option Win
  | [] => none
  | w :: ws => if 0 < w.expect then some w else judgedWin ws

/-- Replace that window. -/
def putWin (n : Win) : List Win → List Win
  | [] => []
  | w :: ws => if 0 < w.expect then n :: ws else w :: putWin n ws

/-- `SP_REVOKED_TOGETHER` is 0: a revoked credential denies the valid ones. -/
def denyTogether (s : State) : Bool := cellNat s 9 == 0

def anyValid (ms : List Member) : Bool := ms.any fun m => !m.dup && granted m.own
def anyRevoked (ms : List Member) : Bool := ms.any fun m => !m.dup && m.own == 0x15
def anyEmergency (ms : List Member) : Bool := ms.any fun m => !m.dup && m.own == 0x01

/-- The window's members ask for the grant sequence (Table 11-6). -/
def wantsDoor (deny : Bool) (ms : List Member) : Bool :=
  anyEmergency ms || (anyValid ms && !(deny && anyRevoked ms))

/-- The codes in force (Table 11-6): a valid credential beside a revoked one. -/
def windowCode (deny revoked : Bool) (m : Member) : Member :=
  if m.own = 0x00 ∧ m.dup = false then { m with code := if deny && revoked then 0x16 else 0x00 } else m

/-- A credential whose grant is taken back carries WITHDRAWN (R225). -/
def withdrawMember (m : Member) : Member :=
  if m.own = 0x00 ∧ m.code = 0x00 ∧ m.dup = false then { m with flags := m.flags ||| 0x0010 } else m

/-- The door follows the window (R224, R225): a sequence starts, restarts, or is withdrawn. -/
def windowDoor (before after : Bool) (s : State) : State :=
  if s.vd.noMove then s
  else if after && !before then openDoor true none false s
  else if before && !after then raise .grantWithdrawn (if s.door.byGrant then withdrawLatch s else s)
  else s

/-! ### A verdict -/

/-- What the checks decided: the code, whether the lookups were made and check 5 passed, whether it was re-run. -/
structure Judged where
  code : Byte
  rerun : Bool
deriving DecidableEq, Repr

/-- One run of the checks: `st` gives the time (R352), `s` everything else. -/
def checks (st s : State) (extra : List Nat) (hits : List EccHit) (t : Bytes) : Byte :=
  match earlyCode s t with
  | some c => c
  | none => if tagOk s t then lateCode st s (lookUp st s extra hits t) t else 0x14

/-- The Keep finishes the car it verifies inside the verdict (R203, R204). -/
def midCar (env : VerdictEnv) (s : State) : State :=
  if env.mid && !s.keep.held then carVerified { ecc := [], back := CalRun.none } s else s

/-- The checks, with the re-run of R203 when the slot they used has been written since. -/
def judge (env : VerdictEnv) (t : Bytes) (s0 s1 : State) : Judged :=
  let k := epochSlot s0 t
  if (earlyCode s0 t).isNone && (keySlot s0 k).gen != (keySlot s1 k).gen then
    { code := checks s0 s1 s0.nv.revoked env.ecc t, rerun := true }
  else { code := checks s0 s0 s1.nv.revoked env.ecc t, rerun := false }

/-- The reply flags byte (R217). -/
def replyFlags (s : State) (first dup rerun : Bool) : Nat :=
  bit (!first) + 2 * bit rerun + 4 * bit (!restOk s) + 8 * bit s.nv.behind + 16 * bit dup + 32 * bit (logSealed s)
    + 64 * bit s.pwr.limit

/-- The verdict is returned by its path (Table 11-2, R136). -/
def returnVerdict (via : Via) (code : Byte) (flags seq : Nat) (s : State) : State :=
  match via with
  | .host b t => replyTo b t .ok ([code, BitVec.ofNat 8 flags] ++ leBytes 5 seq ++ [0]) s
  | .pbus _ => if s.vd.result = 1 ∧ intakeReports s = 0 then setResult (if granted code then 2 else 3) s else s

/-- Steps 3 and 4 of Table 11-3 for a judged credential `c` of window `w`; `st` is the time snapshot. -/
def deliverVerdict (st : State) (c : Cred) (w : Win) (j : Judged) (s : State) : State :=
  let deny := denyTogether s
  let tagged := !earlyFail j.code
  let earlier := if tagged then
      w.members.find? fun m => !m.dup && m.tagged && tokId m.token == tokId c.token
    else none
  let sealed := logSealed s
  let seq := if sealed then noSeq else match earlier with | some m => m.seq | none => nextSeq s
  let m : Member :=
    { token := c.token, via := c.via, code := match earlier with | some e => e.code | none => j.code
      own := j.code, tagged := tagged, dup := earlier.isSome, seq := seq
      ordinal := (w.members.filter (!·.dup)).length
      flags := (if j.rerun then 0x0002 else 0) ||| (if timeUnsure st then 0x0080 else 0)
      time := BitVec.ofNat 32 (devSec st), ms := BitVec.ofNat 16 (devMs st), unc := uncByte st }
  let all := w.members ++ [m]
  let before := wantsDoor deny w.members
  let after := wantsDoor deny all
  let took := before && !after && !s.vd.noMove
  let revoked := anyRevoked all
  let ms := (if took then w.members.map withdrawMember ++ [m] else all).map (windowCode deny revoked)
  let code := match ms.getLast? with | some x => x.code | none => j.code
  let seen := revoked && anyValid all
  let s1 := if earlier.isNone && !sealed then reserve none s else s
  let s2 := raiseIf (seen && !w.revSeen) .revokedSeen
    (s1.onVd fun v => { v with
      intake := v.intake.drop 1, last := some (code, seq)
      windows := putWin { w with members := ms, expect := w.expect - 1, revSeen := w.revSeen || seen } v.windows })
  let s3 := raise (if granted code then .grant else .deny) (windowDoor before after s2)
  let s4 := raiseIf sealed .logSealed s3
  let s5 := returnVerdict c.via code (replyFlags s w.members.isEmpty m.dup j.rerun) seq s4
  finishWindows s5.vd.windows.length s5

/-- VERDICT: the engine takes the next credential (R215, R216). -/
def verdict (env : VerdictEnv) (s : State) : State :=
  match s.vd.intake, judgedWin s.vd.windows with
  | c :: _, some w =>
    let s1 := midCar env s
    if s1.phase = .reset then s1
    else
      let j := judge env c.token s s1
      let looked := (earlyCode s c.token).isNone
      let s2 := if looked then lookupHits env.ecc c.token s1 else s1
      let s3 := if j.rerun && env.second && decide (s2.keep.hash.cur = some .car) then
          s2.onKeep fun k => { k with held := true }
        else s2
      if s3.phase = .reset then s3 else deliverVerdict s c ((judgedWin s3.vd.windows).getD w) j s3
  | _, _ => s

/-- A slot write held back during a re-run proceeds (R203). -/
def heldWrite (env : CarEnv) (s : State) : State :=
  if s.keep.held then carVerified env (s.onKeep fun k => { k with held := false }) else s

/-- The open window closes (R226). -/
def windowCloses (s : State) : State := if s.vd.windows.any (!·.closed) then closeWindow s else s

/-! ### Commands -/

def execWindowClose (s : State) : Host.Outcome State Fault Refusal :=
  .next (if alive s then windowCloses s else s)

end Sys2Proof.Machine
end

