-- ==== Sys2Proof/Machine/Ports.lean ====
section
/-! DEFINITION. The host-bus ports: replies (R113, R139), events (R372, R373), registers (R114, R115), the wake (R117),
the in-band request (R121 to R126) and the debug challenge (R104). -/

namespace Sys2Proof.Machine

/-! ### Reading a port -/

/-- The bytes of a reply (R139). -/
def replyBytes (r : Reply) : Bytes :=
  let b := [r.tag, r.status.code] ++ leBytes 2 r.payload.length ++ r.payload
  b ++ leBytes 2 (crc16 b).toNat

/-- `n` bytes of a stream that ends in zeros. -/
def zeroFill (n : Nat) (b : Bytes) : Bytes := padTo n b

/-- A read of port 0x02 (R113): a reply leaves the queue when its last byte has been transferred. -/
def readReplies (b : Booth) (n : Nat) (s : State) : State :=
  match (s.booth b).replies with
  | [] => send (zeroFill n [0]) s
  | r :: rs =>
    let d := replyBytes r
    let s1 := send (zeroFill n (BitVec.ofNat 8 (rs.length + 1) :: d)) s
    if d.length + 1 ≤ n then s1.onBooth b fun x => { x with replies := rs } else s1

/-- The event records of one group (R372). -/
def groupRecords (pend mask : Word) (g : Nat) : List Nat :=
  ((List.range 32).filter fun i => pend.getLsbD i).map fun i => 32 * g + i + (if mask.getLsbD i then 32768 else 0)

/-- Pending sources in the loader state: only EV_IMG_READY and EV_IMG_INVALID (R93). -/
def loaderRecords (s : State) : List Nat :=
  (if s.boot.loaderReady then [Ev.imgReady.source] else []) ++ (if s.boot.loaderInvalid then [Ev.imgInvalid.source] else [])

/-- Records of the event port, in ascending source number. -/
def eventRecords (s : State) (b : Booth) : List Nat :=
  if s.boot.loader then loaderRecords s
  else (List.finRange 17).flatMap fun g => groupRecords ((s.booth b).pend.get g) ((s.booth b).mask.get g) g.val

/-- A read of port 0x04 (R372). -/
def readEvents (b : Booth) (n : Nat) (s : State) : State :=
  send (zeroFill n ((eventRecords s b).flatMap (leBytes 2) ++ [0xFF, 0xFF])) s

/-- A booth 1 to 7 reads past its view in a read of `n` bytes from `a` (R115). -/
def readsPast (src : Src) (a n : Nat) : Bool :=
  src.booth != 0 && decide (0 < n ∧ 0x200 < a + 4 * ((n + 3) / 4) ∧ a < 0x1000)

/-- A read of port 0x03 from address `a` (R114, R115): the address advances with each word. -/
def readRegs (src : Src) (a n : Nat) (s : State) : State :=
  let s1 := send ((readWords s src a ((n + 3) / 4)).take n) s
  let s2 := setSel src (.register (a + 4 * (n / 4))) s1
  if readsPast src a n && !s.boot.loader then boothPrivEvent src.booth s2 else s2

/-- The booth that a read reaches: in single mode the one of the selection (R111). -/
def readBooth (s : State) (src : Src) : Booth :=
  if addrMode s = 2 ∧ src.path = .host then s.hb.singleBooth else src.booth

/-- The selection in force for a read (R111, R152): a draining booth reads from the reply port. -/
def readSel (s : State) (src : Src) (named : Port) : Port :=
  match src.path with
  | .debug => named
  | .host =>
    if (s.booth (readBooth s src)).mode = .draining then .reply
    else if addrMode s = 2 then s.hb.singleSel else s.hb.sel.get src.booth

/-- Bytes of the selected port; the command port gives the free places of the booth's depth, repeated (Table 6-3). -/
def readFrom (src : Src) (n : Nat) (port : Port) (s : State) : State :=
  match port with
  | .reply => readReplies src.booth n s
  | .event => readEvents src.booth n s
  | .register a => readRegs src a n s
  | .command =>
    send (List.replicate n (BitVec.ofNat 8 ((s.booth src.booth).depth - depthCount s src.booth))) s

/-- The register address in the selection that a write at the sender's address would change; where that selection is of
another port the spec names none, and the address is open (log 49). -/
def selAddr (s : State) (src : Src) : Nat :=
  match if addrMode s = 2 then s.hb.singleSel else s.hb.sel.get src.booth with
  | .register a => a
  | _ => 4 * (Config.openRegAddr s.free).toNat

/-- A write that ends after what selects a port (R109, R111): the selection is set by a port byte that names a port, a port
byte or booth byte that does not is NACKed and sets nothing. -/
def portWrite (src : Src) (w : PortWrite) (s : State) : State :=
  let f := busFront src true s
  if !f.2 then f.1
  else
    match w with
    | .command => setSel src .command f.1
    | .reply => setSel src .reply f.1
    | .event => setSel src .event f.1
    | .register _ => (setSel src (.register (selAddr f.1 src)) f.1).draw
    | .other _ => setAck false f.1
    | .boothByte _ => setAck false f.1

/-- A read transaction of `n` bytes from the selection in force, or, on the debug port, from the named port (R111,
Table 5-5). -/
def readTransaction (src : Src) (named : Port) (n : Nat) (s : State) : State :=
  let who : Src := { src with booth := readBooth s src }
  let f := busFront who false s
  if f.2 && busFits src n then readFrom who n (readSel f.1 who named) f.1 else f.1

/-- A write of what selects a port, then a read transaction (R111). The debug port names its port in every transfer. -/
def portRead (src : Src) (first : Option PortWrite) (named : Port) (n : Nat) (s : State) : State :=
  readTransaction src named n
    (match first with
     | some w => if src.path = .debug then s else portWrite src w s
     | none => s)

/-! ### The event port and the register port -/

/-- Clear one source for a booth, as a W1C write would (R373). -/
def clearSource (b : Booth) (v : Nat) (s : State) : State :=
  if s.boot.loader then
    s.onBoot fun x => { x with
      loaderReady := x.loaderReady && decide (v ≠ Ev.imgReady.source)
      loaderInvalid := x.loaderInvalid && decide (v ≠ Ev.imgInvalid.source) }
  else
    s.onBooth b fun x =>
      let g : Fin 17 := Fin.ofNat 17 (v / 32)
      { x with pend := x.pend.set g (x.pend.get g &&& ~~~ (1#32 <<< (v % 32))) }

/-- Clear every source of a booth. -/
def clearSources (b : Booth) (s : State) : State :=
  if s.boot.loader then s.onBoot fun x => { x with loaderReady := false, loaderInvalid := false }
  else s.onBooth b fun x => { x with pend := Vector.replicate 17 0 }

/-- The source numbers of a write to port 0x04, in order (R373). -/
def eventWrite (b : Booth) : Bytes → State → State
  | lo :: hi :: rest, s =>
    let v := lo.toNat + 256 * hi.toNat
    if v = 0xFFFF then eventWrite b rest (clearSources b s)
    else if 543 < v then setAck false s
    else eventWrite b rest (clearSource b v s)
  | _, s => s

/-- Words of a register-port write (R114, R115); `r` is what a bus clear would find. -/
def writeWords (src : Src) (r : ClearResult) : Nat → Nat → Bytes → State → State
  | 0, _, _, s => s
  | n + 1, a, d, s =>
    if d = [] then s
    else if 0x1000 ≤ a then setAck false s
    else if s.boot.loader then writeWords src r n (a + 4) (d.drop 4) (setSel src (.register (a + 4)) s)
    else if src.booth ≠ 0 ∧ 0x100 ≤ a then setAck false (boothPrivEvent src.booth s)
    else if d.length < 4 then s
    else
      writeWords src r n (a + 4) (d.drop 4)
        (writeReg src.booth a (BitVec.ofNat 32 (ofLe (d.take 4))) r (setSel src (.register (a + 4)) s))

/-- An address that R114 accepts. -/
def regAddrOk (a : Nat) : Bool := decide (a % 4 = 0 ∧ a < 0x1000)

/-- A register-port transaction (R114, R115). -/
def regTransaction (src : Src) (acc : RegAccess) (s : State) : State :=
  match acc with
  | .read addr n =>
    let f := busFront src true s
    if !f.2 || !busFits src n then f.1
    else if regAddrOk addr.toNat then
      (let s1 := setSel src (.register addr.toNat) f.1
       readRegs src addr.toNat n s1)
    else setAck false f.1
  | .write addr d r =>
    let f := busFront src true s
    if !f.2 || !busFits src d.length then f.1
    else if regAddrOk addr.toNat then
      writeWords src r ((d.length + 3) / 4) addr.toNat d (setSel src (.register addr.toNat) f.1)
    else setAck false f.1

/-! ### The in-band request -/

/-- The bus address of a booth in the present mode (Table 6-1). -/
def busAddr (s : State) (b : Booth) : Nat :=
  let base := match s.hb.strap with | some (_, a) => a.toNat | none => 0x20
  if addrMode s = 0 then base + b.val
  else if addrMode s = 1 then Nat.lor (bits s.hb.addrCfg 16 7) (Nat.land b.val (bits s.hb.addrCfg 8 3))
  else base

/-- The booth may make its in-band request now (R121, R123, R126, R375). -/
def ibrReady (s : State) (b : Booth) : Bool :=
  s.hb.ibrReq.getLsbD b.val && ibrWants s b && hasAddress s b
    && (s.phase == .running || (s.phase == .holdSafe && b == 0))

/-- The device makes no request after a timeout until 100 ms have passed (R124). -/
def ibrIsQuiet (s : State) : Bool := match s.hb.ibrQuiet with | some t => decide (s.ao.rtc < t) | none => false

/-- A request starts: the booth with the lowest number goes first (R121, R123). -/
def ibrStart (s : State) : State :=
  if s.hb.ibrBusy.isSome || ibrIsQuiet s then s
  else
    match allBooths.find? (ibrReady s) with
    | some b => s.onHb fun h => { h with ibrBusy := some b }
    | none => s

/-- Pending events of a booth, signalling or not (R375). -/
def pendCount (s : State) (b : Booth) : Nat := ((s.booth b).pend.toList.map fun w => popCount 32 w.toNat).sum

/-- The pending-event byte (Table 6-5). -/
def pendByte (s : State) (b : Booth) : Byte :=
  BitVec.ofNat 8 (bit (!(s.booth b).replies.isEmpty) + 2 * bit (decide (0 < pendCount s b))
    + 4 * bit (b == 0 && (s.err.aValid || s.err.bValid)) + 8 * bit (s.phase == .holdSafe)
    + 16 * min 15 (pendCount s b))

def clearIbr (b : Booth) (s : State) : State :=
  s.onHb fun h => { h with ibrBusy := none, ibrReq := h.ibrReq &&& ~~~ (1#8 <<< b.val) }

/-- The request ends (R122 to R124): satisfied, dropped, or lost to another address, which is answered as any target
would. -/
def ibrSend (e : IbrEnd) (s : State) : State :=
  match s.hb.ibrBusy with
  | none => s
  | some b =>
    match e with
    | .completed more =>
      send ([BitVec.ofNat 8 (2 * busAddr s b + 1)] ++ (if addrMode s = 2 then [BitVec.ofNat 8 b.val] else [])
        ++ [pendByte s b] ++ List.replicate more 0xFF) (clearIbr b s)
    | .addressNacked => setAck false (clearIbr b s)
    | .lost addr read =>
      let s1 := s.onHb fun h => { h with ibrBusy := none }
      match allBooths.find? fun x => hasAddress s x && busAddr s x == addr.toNat with
      | some x => (busFront { booth := if addrMode s = 2 then s.hb.singleBooth else x, path := .host } (!read) s1).1
      | none => setAck false s1

/-- No clock within `IBR_HOLD` (R124). -/
def ibrTimesOut (s : State) : State :=
  if s.hb.ibrBusy.isSome then
    raise .ibrTimeout (s.onHb fun h => { h with ibrBusy := none, ibrQuiet := some (s.ao.rtc + ticksMs 100) })
  else s

/-! ### The debug challenge -/

/-- The debug port is served: while the device runs, and in the loader state. -/
def dbgServed (s : State) : Bool := (alive s || s.boot.loader) && s.boot.dbg == .challenge

/-- A read of port 0x05: a new nonce, unless the entropy source is failing (R104, R210). -/
def nonceRead (n : Nat) (s : State) : State :=
  if !dbgServed s || !(decide (1 ≤ n) && decide (n ≤ 255)) then s
  else if s.keep.rngFailing then send [] s
  else
    let r := randomBytes 16 s
    send (zeroFill n (r.1 ++ idBytes)) (r.2.onBoot fun b => { b with nonce := some r.1 })

/-- A signature is written to port 0x05: the outstanding nonce is used up, and the Keep checks the signature against it
(R104, R193). -/
def challenge (sig : Bytes) (s : State) : State :=
  if !dbgServed s || !(decide (1 ≤ sig.length) && decide (sig.length ≤ 255)) then s
  else hashWork { booth := 0, tag := 0, op := .dbgSig s.boot.nonce sig } (s.onBoot fun b => { b with nonce := none })

/-! ### Commands -/

def execReplyRead (src : Src) (first : Option PortWrite) (count : Nat) (s : State) : Host.Outcome State Fault Refusal :=
  .next (portRead src first .reply count s)
def execEventPortRead (src : Src) (withPort : Bool) (count : Nat) (s : State) : Host.Outcome State Fault Refusal :=
  .next (portRead src (if withPort then some .event else none) .event count s)
def execEventPortWrite (src : Src) (data : Bytes) (s : State) : Host.Outcome State Fault Refusal :=
  let f := busFront src true s
  .next (if f.2 && busFits src data.length then eventWrite src.booth data (setSel src .event f.1) else f.1)
/-- BOOTH_PRIV: a register-port transaction, which meets R115 where a booth reaches past its view. -/
def execBoothPriv (src : Src) (acc : RegAccess) (s : State) : Host.Outcome State Fault Refusal :=
  .next (regTransaction src acc s)
def execDbgNonceRead (count : Nat) (s : State) : Host.Outcome State Fault Refusal := .next (nonceRead count s)
def execDbgChallenge (sig : Bytes) (s : State) : Host.Outcome State Fault Refusal := .next (challenge sig s)
/-- HB_WAKE: a matching address in sleep (R117, R118). -/
def execHbWake (booth : Booth) (s : State) : Host.Outcome State Fault Refusal :=
  .next (if s.hb.asleep then (busFront { booth := booth, path := .host } false s).1 else s)
def execIbrStart (s : State) : Host.Outcome State Fault Refusal := .next (ibrStart s)
def execIbrSend (e : IbrEnd) (s : State) : Host.Outcome State Fault Refusal := .next (ibrSend e s)
def execIbrTimeout (s : State) : Host.Outcome State Fault Refusal := .next (ibrTimesOut s)

end Sys2Proof.Machine
end

