-- ==== Sys2Proof/Machine/Listen.lean ====
section
/-! DEFINITION. Datacast windows (R246, R256, R257, R330), the background calibration
(R242), loss of lock and of the reference (R249, R250), the delay line (R252), blanking (R258, R303), and `DC_LISTEN`,
`DC_STOP`, `DC_START`. -/

namespace Sys2Proof.Machine

/-! ### Windows -/

def freshWindow (chan mast types : Half) (cmd : Option (Booth × Byte)) (another : Bool) (plan : Option (Nat × Nat)) :
    Window :=
  { chan := chan, mast := mast, types := types, cmd := cmd, frames := 0, cars := 0, opened := false
    another := another, ending := false, blankLong := false, saturated := false, heard := false, got := 0, applied := 0
    plan := plan }

/-- The window of a `DC_LISTEN`; in RETIRED the radio stays off and the window brings nothing. -/
def startListen (q : ListenReq) (s : State) : State :=
  let w := freshWindow q.chan 0 (expected s q.chan q.ms) (some (q.booth, q.tag)) q.env.another none
  if radioUp s then windowDue q.env w s else s.onRx fun r => { r with window := some w }

/-- Waiting `DC_LISTEN` commands take the radio in their order. -/
def nextListen : Nat → State → State
  | 0, s => s
  | n + 1, s =>
    if s.rx.window.isSome then s
    else
      match s.rx.listens with
      | [] => s
      | q :: qs => nextListen n (startListen q (s.onRx fun r => { r with listens := qs }))

def runListens (s : State) : State := nextListen s.rx.listens.length s

/-- DC_LISTEN (Table 7-2, R282, R256). -/
def dcListenBody (p : Packet) (env : WindowEnv) (s : State) : State :=
  let chan : Half := BitVec.ofNat 16 (leField p.payload 0 2)
  let ms := leField p.payload 2 2
  if !chanOk chan || decide (ms = 0 ∨ 10000 < ms) then answer p .badParam [] s
  else
    let q : ListenReq := { booth := p.src.booth, tag := p.tag, chan := chan, ms := ms, env := env }
    runListens (s.onRx fun r => { r with listens := r.listens ++ [q] })

/-- The radio chain and the carousel receiver (Table 4-7 bits 0 to 4). The spec lists no block for a command: that
`DC_LISTEN` needs these five is the model's reading of R142 step 5 (log 45). -/
def needsRadio (_ : State) : Needs := { juggler := true, gates := 0x01F, power := false }

/-- Every window ends at once; waiting `DC_LISTEN` commands have received nothing (R246). -/
def stopWindows (back : CalRun) (s : State) : State :=
  refuseListens .ok (zeros 4) s.rx.listens (cutWindow .ok back s)

/-- DC_STOP (R246): learned listening stays off until DC_START. -/
def dcStopBody (p : Packet) (back : CalRun) (s : State) : State :=
  done p ((stopWindows back s).onRx fun r => { r with stopped := true })

/-- DC_START (Table 7-2). -/
def dcStartBody (p : Packet) (s : State) : State := done p (s.onRx fun r => { r with stopped := false })

/-- A learned slot falls due (R330, R331): a window opens when nothing keeps the radio from it. -/
def listenDue (p : SlotPlan) (env : WindowEnv) (s : State) : State :=
  if radioUp s && !s.rx.stopped && s.rx.window.isNone && chanOk p.chan && slotWanted s p
      && (heldOff s &&& 0x01F) == 0 then
    runListens (windowDue env (freshWindow p.chan p.mast p.types none (p.another || env.another) (planOf s p))
      (noteRefresh p s))
  else s

/-- COEX_GNT rises while a window waits for it: the window opens and the radio retunes into LISTEN (R245, R257). -/
def coexGrants (cal back : CalRun) (s : State) : State :=
  match s.rx.window with
  | some w =>
    if !w.opened && s.rx.coexReq then
      let w1 : Window := { w with opened := true }
      let s1 := s.onRx fun r => { r with window := some w1 }
      if s.rx.refLost then s1
      else
        let t := retune (dcTarget w.chan) cal (radioSettle (listenOn .datacast w.chan.toNat false s1))
        if t.2 then clocks t.1 else runListens (cutWindow .ok back (clocks t.1))
    else s
  | none => s

/-- The window ends (R246): one that still waits for the grant is missed (R257). -/
def endWindow (back : CalRun) (s : State) : State :=
  match s.rx.window with
  | none => s
  | some w =>
    leaveWindow back (answerListen .ok (noteWindow w (raiseIf (!w.opened && s.rx.coexReq) .coexDenied s)))

/-- A window reaches its end time: a frame with a decoded header is received to its end first (R246). -/
def windowEnds (back : CalRun) (s : State) : State :=
  match s.rx.window with
  | none => s
  | some w =>
    if s.rx.frame.isSome then
      let w1 : Window := { w with ending := true }
      s.onRx fun r => { r with window := some w1 }
    else runListens (endWindow back s)

/-- A learned window closes early once every car needed in it has been applied (R330). -/
def closeServed (back : CalRun) (s : State) : State :=
  match s.rx.window with
  | some w => if windowServed w && s.rx.frame.isNone then runListens (endWindow back s) else s
  | none => s

/-- A frame has ended: a window past its end time follows it (R246). -/
def afterFrame (back : CalRun) (s : State) : State :=
  match s.rx.window with
  | some w => if w.ending && s.rx.frame.isNone then runListens (endWindow back s) else s
  | none => s

/-! ### Calibration in the background -/

/-- The entry of a channel is unusable or 5 °C or more away (R242). -/
def calStale (s : State) (c : Half) : Bool :=
  !usable s (.dc c)
    || s.nv.calTab.any fun e => e.key = .dc c && decide (5 ≤ (e.temp - s.pwr.dieTemp).natAbs)

/-- The radio stands ready for a background calibration: in STANDBY, or woken from SLEEP for the next LISTEN, about 2 ms
before it (R242, R330). -/
def calReady (s : State) : Bool :=
  (s.rx.mode == .standby || (s.rx.mode == .sleep && radioUp s && !s.rx.stopped)) && !s.rx.refLost
    && s.rx.window.isNone && !(heldOff s).getLsbD 2

/-- CAL_BACKGROUND (R242): in STANDBY the calibration begins; the same command while it runs is its end. -/
def calBackground (chan : Half) (cal : CalRun) (s : State) : State :=
  if calReady s then
    let s0 := readCal (dcTarget chan) cal s
    if chanOk chan && calStale s0 chan then
      radioSettle ((clk1Pause (setSyn (dcTarget chan) s0)).onRx fun r =>
        { r with mode := .calibrating, calBg := some chan, lock := false, settling := false })
    else radioSettle (s0.onRx fun r => { r with mode := .standby })
  else if s.rx.mode = .calibrating ∧ s.rx.calBg = some chan then
    let t :=
      if cal.locks then
        (if usable s (.band (dividerOf (chanKhz chan))) then putCal (.dc chan) cal s
         else putCal (.dc chan) cal (putCal (.band (dividerOf (chanKhz chan))) cal s))
      else raise .calFail s
    radioSettle (t.onRx fun r => { r with mode := .standby, calBg := none, lock := cal.locks, settling := false })
  else s

/-! ### Lock and reference -/

/-- What the radio's last retune was for; none before any. -/
def tuned (s : State) : Option Target :=
  if s.rx.inputV then some (fmTarget s.rx.chan.toNat) else if chanOk s.rx.chan then some (dcTarget s.rx.chan) else none

/-- A loss of lock, or a start of the synthesiser that misses its bound (R248, R249): LOCK and CLKOUT1 drop, the frame
goes, and one full calibration on the same channel follows. A window whose calibration fails ends with nothing received
(R243). -/
def synUnlocks (cal back : CalRun) (s : State) : State :=
  if !s.rx.lock && !s.rx.settling then s
  else
    let s1 := raise .synUnlock (discardFrame (clocks (setLock false s)))
    let t :=
      match tuned s with
      | some g => fullCal g cal s1
      | none =>
        if cal.locks then (setLock true (clk1Pause s1), true) else (raise .calFail (setLock false (clk1Pause s1)), false)
    let s2 := afterFrame back (radioSettle (if t.2 then fmSound t.1 else fmSilent t.1))
    if t.2 || s2.rx.mode ≠ .datacast then s2 else runListens (cutWindow .ok back s2)

/-- The reference is lost while something needs it (R250). -/
def refLoses (s : State) : State :=
  if !needRef s || s.rx.refLost then s
  else
    let s1 := discardFrame (s.onRx fun r => { r with refLost := true, lock := false, settling := false, calBg := none })
    afterFrame CalRun.none (radioSettle (raise .refLoss (s1.onRx fun r => { r with mode := .standby })))

/-- 256 valid periods have passed (R250): an open window, else a held station, resumes by a retune. -/
def refReturns (cal back : CalRun) (s : State) : State :=
  if !s.rx.refLost then s
  else
    let s1 := raise .refOk (s.onRx fun r => { r with refLost := false })
    match s1.rx.window, s1.fm.hold with
    | some w, _ =>
      if w.opened then
        let t := retune (dcTarget w.chan) cal (radioSettle (listenOn .datacast w.chan.toNat false s1))
        if t.2 then clocks t.1 else runListens (cutWindow .ok back (clocks t.1))
      else radioSettle s1
    | none, some h => fmListen h.freq false back s1
    | none, none => radioSettle (s1.onRx fun r => { r with mode := .sleep })

/-- No CLKFB edge for 1 µs (R252): the delay freezes, CLKOUT0 goes on. -/
def dllUnlocks (s : State) : State :=
  if s.rx.dllLock then raise .dllUnlock (s.onRx fun r => { r with dllLock := false }) else s

/-! ### Blanking -/

/-- The level at a blanking pin at its asserting or releasing edge, by the polarity of `BLANK_x_LOW` (R258). -/
def setBlank (p : BlankPin) (on : Bool) (s : State) : State :=
  s.onRx fun r => match p with
    | .a => { r with blankA := on != r.coexCfg.getLsbD 8 }
    | .b => { r with blankB := on != r.coexCfg.getLsbD 9 }

/-- An asserting edge: zeros from here on (R258). -/
def blankAsserts (p : BlankPin) (s : State) : State := noteBlank (setBlank p true s)

/-- A releasing edge: the zeros continue for 2 µs (R258). -/
def blankReleases (p : BlankPin) (s : State) : State :=
  let s1 := setBlank p false (noteBlank s)
  if blanking s && !blanking s1 then s1.onJug fun j => { j with chain := { j.chain with blankTail := 33 } } else s1

/-- Blanking has held for 10 ms in one window (R258). -/
def blankTooLong (s : State) : State :=
  match s.rx.window with
  | some w =>
    if blanking s && s.rx.mode == .datacast && w.opened && !w.blankLong then
      let w1 : Window := { w with blankLong := true }
      raise .blankLong (s.onRx fun r => { r with window := some w1 })
    else s
  | none => s

/-- A component saturates at a frond (R265): once per datacast window, once per second of FM. -/
def frondSaturates (s : State) : State := noteSat true s

/-- The demodulator misses a sample deadline (Table 18-2): the frame is discarded, or audio carries zeros. -/
def demodLate (fm : Bool) (lost : Nat) (back : CalRun) (s : State) : State :=
  if s.rx.mode = (if fm then .fm else .datacast) then
    let s1 :=
      if fm then s.onJug fun j => { j with chain := { j.chain with mute := max j.chain.mute lost } }
      else s.onRx fun r => { r with frame := none }
    afterFrame back (writeErr 0x020 (if fm then 2 else 1) (BitVec.ofNat 32 lost) s1)
  else s

/-! ### Commands -/

/-- CAR_VERIFIED (R317); a window that it has served closes (R330). -/
def execCarVerified (env : CarEnv) (s : State) : Host.Outcome State Fault Refusal :=
  .next (if alive s && !s.keep.held then closeServed env.back (carVerified env s) else s)

/-- VERDICT (R215, R216); a car that finishes inside it may have served its window (R330). -/
def execVerdict (env : VerdictEnv) (s : State) : Host.Outcome State Fault Refusal :=
  .next (if alive s then (if env.mid then closeServed env.back (verdict env s) else verdict env s) else s)

/-- HELD_SLOT_WRITE (R203): the car's verification proceeds. -/
def execHeldSlotWrite (env : CarEnv) (s : State) : Host.Outcome State Fault Refusal :=
  .next (if alive s && s.keep.held then closeServed env.back (heldWrite env s) else s)

def execDcListen (p : Packet) (env : WindowEnv) (s : State) : Host.Outcome State Fault Refusal :=
  .next (command op_dcListen needsRadio p (dcListenBody p env) s)
def execDcStop (p : Packet) (back : CalRun) (s : State) : Host.Outcome State Fault Refusal :=
  .next (simpleCommand op_dcStop p (dcStopBody p back) s)
def execDcStart (p : Packet) (s : State) : Host.Outcome State Fault Refusal :=
  .next (simpleCommand op_dcStart p (dcStartBody p) s)
def execListenWindowOpen (plan : SlotPlan) (env : WindowEnv) (s : State) : Host.Outcome State Fault Refusal :=
  .next (listenDue plan env s)
def execCoexGrant (cal back : CalRun) (s : State) : Host.Outcome State Fault Refusal := .next (coexGrants cal back s)
def execWindowEnd (cal : CalRun) (s : State) : Host.Outcome State Fault Refusal := .next (windowEnds cal s)
def execCalBackground (chan : Half) (cal : CalRun) (s : State) : Host.Outcome State Fault Refusal :=
  .next (calBackground chan cal s)
def execSynUnlock (cal back : CalRun) (s : State) : Host.Outcome State Fault Refusal := .next (synUnlocks cal back s)
def execRefLoss (s : State) : Host.Outcome State Fault Refusal := .next (refLoses s)
def execRefReturn (cal back : CalRun) (s : State) : Host.Outcome State Fault Refusal := .next (refReturns cal back s)
def execDllUnlock (s : State) : Host.Outcome State Fault Refusal := .next (dllUnlocks s)
def execBlankAssert (pin : BlankPin) (s : State) : Host.Outcome State Fault Refusal := .next (blankAsserts pin s)
def execBlankRelease (pin : BlankPin) (s : State) : Host.Outcome State Fault Refusal :=
  .next (blankReleases pin s)
def execBlankLong (s : State) : Host.Outcome State Fault Refusal := .next (blankTooLong s)
def execFrondSaturation (s : State) : Host.Outcome State Fault Refusal := .next (frondSaturates s)
def execDemodLate (fm : Bool) (lost : Nat) (back : CalRun) (s : State) : Host.Outcome State Fault Refusal :=
  .next (demodLate fm lost back s)

end Sys2Proof.Machine
end

