-- ==== Sys2Proof/Machine/Datacast.lean ====
section
/-! DEFINITION. The datacast on the air: header (R288, R289, R302), frame (R291, R296 to R298, R305), reassembly (R308,
R309), and the `DC_` commands that need no radio. -/

namespace Sys2Proof.Machine

/-! ### Header -/

/-- One bit through the header CRC (R289). -/
def hcrcBit (c : Byte) (h : Bool) : Byte := if c.msb != h then (c <<< 1) ^^^ 0x07 else c <<< 1

/-- `HCRC` of the header's bits h0 to h15 (R289). -/
def hcrc (h : BitVec 24) : Byte := ((List.range 16).map h.getLsbD).foldl hcrcBit 0xFF

/-- Data bits per symbol and most payload symbols of a mode (Table 14-7). -/
def modeBits (m : Nat) : Nat := [24, 48, 72, 144].getD m 144
def modeMax (m : Nat) : Nat := [177, 89, 59, 30].getD m 30

/-- The fields of a header (Table 14-5). -/
def headerFrame (h : BitVec 24) : Frame :=
  let v := h.toNat
  { mode := v % 4, nsym := v / 4 % 512, seed := v / 4096 % 16, start := 0, ref := Instant.zero, corrHz := 0, timing := 0, erased := [] }

/-- A header passes (R302). -/
def headerGood (h : BitVec 24) : Bool :=
  let f := headerFrame h
  decide (h.toNat / 65536 = (hcrc h).toNat) && !h.getLsbD 11 && decide (1 ≤ f.nsym ∧ f.nsym ≤ modeMax f.mode)

/-- The coarse frequency correction of R300: unambiguous over ±4 kHz, the 16-sample period of the short training. -/
def coarseHz (x : Int) : Int := (x + 4000) % 8000 - 4000

/-- The header symbol that ends now, and the preamble of four symbols before it, in RTC periods (R287, R303). -/
def headerBlanked (s : State) : Bool := blankedIn s (s.ao.rtc - 18) s.ao.rtc
def trainingBlanked (s : State) : Bool := blankedIn s (s.ao.rtc - 92) (s.ao.rtc - 19)

/-- DC_HEADER_DECODE (R300 to R303): a preamble that begins less than 100 µs after the radio was ready, or whose training
blanking has touched, acquires no frame; blanking over the header makes it fail. The frame keeps the frequency correction
and the timing of its training to its end. -/
def headerDecodes (h : BitVec 24) (q : Acquire) (s : State) : State :=
  let open_ := match s.rx.window with | some w => w.opened | none => false
  if s.rx.mode = .datacast ∧ s.rx.frame = none ∧ open_ = true ∧ chainRuns s = true ∧ 100 ≤ q.readyUs
      ∧ trainingBlanked s = false then
    (if headerGood h && !headerBlanked s then
      s.onRx fun r => { r with frame := some { headerFrame h with
        start := s.ao.rtc - 92, ref := instantBack s 92, corrHz := coarseHz q.coarseHz + q.fineHz, timing := q.timing } }
     else raise .dcHdrFail s)
  else s

/-! ### Link frame -/

/-- The scrambler's output for `n` bits from a register value x7…x1 (R291). -/
def scrambler : Nat → BitVec 7 → List Bool
  | 0, _ => []
  | n + 1, x =>
    let f := x.getLsbD 6 != x.getLsbD 3
    f :: scrambler n ((x <<< 1) ||| (if f then 1 else 0))

/-- The register at the first link-frame bit. -/
def scramblerStart (seed : Nat) : BitVec 7 := BitVec.ofNat 7 (8 * seed + 7)

/-- Bytes of a bit stream, least significant bit first. -/
def bytesOfBits : Nat → List Bool → Bytes
  | 0, _ => []
  | n + 1, l =>
    BitVec.ofNat 8 ((l.take 8).zipIdx.map fun x => if x.1 then 2 ^ x.2 else 0).sum :: bytesOfBits n (l.drop 8)

/-- The bytes that a frame's payload symbols hold, descrambled. -/
def linkBytes (f : Frame) (b : List Bool) : Bytes :=
  let n := f.nsym * modeBits f.mode
  let b1 := b.take n ++ List.replicate (n - b.length) false
  bytesOfBits (n / 8) (List.zipWith (fun x y => x != y) b1 (scrambler n (scramblerStart f.seed)))

def fragLen (l : Bytes) : Nat := leField l 10 2 % 1024
def fragIdx (l : Bytes) : Nat := leField l 10 2 / 1024 % 8
def fragLast (l : Bytes) : Nat := leField l 10 2 / 8192

/-- A frame is good (R298). -/
def frameGood (f : Frame) (l : Bytes) : Bool :=
  let n := fragLen l
  decide (1 ≤ n ∧ n ≤ 512 ∧ 8 * (16 + n) ≤ f.nsym * modeBits f.mode ∧ fragIdx l ≤ fragLast l)
    && decide (leField l (12 + n) 4 = (crc32 (l.take (12 + n))).toNat)

/-- A thousandth part rounded to the nearest integer, halves upward. -/
def roundMilli (x : Int) : Int := (x + 500) / 1000

/-- `RX_QUALITY.EVM` from S in thousandths of a dB (R305 item 1). -/
def evmField (sm : Int) : Byte := BitVec.ofInt 8 (max 0 (min 255 (roundMilli (4 * sm))))

/-- `RX_QUALITY.LQI` (R305 item 2). -/
def lqiField (mode : Nat) (good : Bool) (sm : Int) : Byte :=
  if good then
    BitVec.ofInt 8 (max 1 (min 255 (128 + roundMilli (8 * (sm - 1000 * [4, 7, 10, 17].getD mode 17)))))
  else 0

/-! ### Reassembly -/

def samePartial (mast tag : Half) (p : Partial) : Bool := p.mast == mast && p.tag == tag

/-- Discard a partial car (R309). -/
def dropPartial (mast tag : Half) (s : State) : State :=
  count .aborted (s.onCar fun c => { c with partials := c.partials.filter fun p => !samePartial mast tag p })

/-- The bytes of a car whose fragments are all held, in ascending index (R308). -/
def joinFrags (p : Partial) : Bytes :=
  (List.range (p.last + 1)).flatMap fun i => match p.frags.find? (·.1 = i) with | some f => f.2 | none => []

/-- A fragment joins its partial car, which becomes the one heard latest; the last missing one completes the car. -/
def holdFrag (p : Partial) (s : State) : State :=
  let others := s.car.partials.filter fun x => !samePartial p.mast p.tag x
  if p.frags.length = p.last + 1 then
    carComplete { bytes := joinFrags p, mast := p.mast, ref := p.ref, cmd := none }
      (s.onCar fun c => { c with partials := others })
  else s.onCar fun c => { c with partials := others ++ [p] }

/-- A first fragment of a fifth car discards the partial car heard longest ago (R309 item 4). -/
def makeRoom (s : State) : State :=
  match s.car.partials with
  | p :: _ => if 4 ≤ s.car.partials.length then dropPartial p.mast p.tag s else s
  | [] => s

/-- A fragment of a car of which nothing is held; one that is not the last and is short belongs to no car (R308). -/
def firstFrag (mast tag : Half) (l : Bytes) (ref : Instant) (s : State) : State :=
  if fragIdx l ≠ fragLast l ∧ fragLen l ≠ 512 then s
  else
    holdFrag { mast := mast, tag := tag, last := fragLast l, frags := [(fragIdx l, sub l 12 (fragLen l))], ref := ref }
      (makeRoom s)

/-- A good frame of this property goes to reassembly (R308, R309); `ref` is its reference instant. After a discard for
another `FRAG_LAST` the fragment begins a car of its own. -/
def reassemble (l : Bytes) (ref : Instant) (s : State) : State :=
  let mast : Half := BitVec.ofNat 16 (leField l 4 2)
  let tag : Half := BitVec.ofNat 16 (leField l 8 2)
  let i := fragIdx l
  match s.car.partials.find? (samePartial mast tag) with
  | some p =>
    if p.last ≠ fragLast l then firstFrag mast tag l ref (dropPartial mast tag s)
    else if i ≠ fragLast l ∧ fragLen l ≠ 512 then dropPartial mast tag s
    else if p.frags.any (·.1 = i) then s
    else holdFrag { p with frags := (i, sub l 12 (fragLen l)) :: p.frags, ref := if i = 0 then ref else p.ref } s
  | none => firstFrag mast tag l ref s

/-- A good frame of any property: R298, R308, R329. -/
def goodFrame (f : Frame) (l : Bytes) (lqi : Byte) (s : State) : State :=
  let mast : Half := BitVec.ofNat 16 (leField l 4 2)
  let seq : Half := BitVec.ofNat 16 (leField l 6 2)
  let s1 := s.onRx fun r =>
    { r with lastSeq := seq, lastMast := mast, window := r.window.map fun w => { w with frames := w.frames + 1 } }
  if !cellWritten s 1 || decide (leField l 0 4 ≠ propertyId s) then count .stranger s1
  else
    let s2 := noteLqi mast lqi.toNat (s1.onRx fun r => { r with lastChan := some r.chan })
    if (heldOff s).getLsbD 4 then s2 else reassemble l f.ref s2

/-- DC_FRAME_END (R298, R304, R305, R385). -/
def frameEnds (env : FrameEnv) (s0 : State) : State :=
  let s := if s0.rx.frame.isSome then readErrors env.ecc s0 else s0
  match s.rx.frame with
  | none => s
  | some f =>
    let l := linkBytes f env.bits
    let good := frameGood f l
    let lqi := lqiField f.mode good env.s
    let s1 := s.onRx fun r =>
      { r with frame := none, evm := evmField env.s, lqi := lqi, rssi := byteOfInt env.rssi }
    afterFrame env.back (if good then goodFrame f l lqi s1 else raise .dcCrcFail s1)

/-- 1 s has passed with no new fragment of a partial car (R309 item 3). -/
def partialTimesOut (mast tag : Half) (s : State) : State :=
  if s.car.partials.any (samePartial mast tag) then dropPartial mast tag s else s

/-! ### Packets -/

/-- DC_STATUS (Table 7-2); the channel is the one `RX_STATE` shows. -/
def dcStatusBody (p : Packet) (s : State) : State :=
  answer p .ok
    (leBytes 2 s.rx.chan.toNat ++ [s.rx.evm, s.rx.lqi, BitVec.ofNat 8 s.rx.mode.code] ++ zeros 3
      ++ leBytes 2 s.rx.lastSeq.toNat ++ leBytes 2 s.rx.lastMast.toNat ++ zeros 4) s

/-- DC_SUBSCRIBE (R324): bits 1 to 10. -/
def dcSubscribeBody (p : Packet) (s : State) : State :=
  let m : Half := BitVec.ofNat 16 (leField p.payload 0 2)
  if m &&& 0xF801 ≠ 0 then answer p .badParam [] s
  else done p (s.onBooth p.src.booth fun x => { x with cars := m })

/-- DC_COUNTERS (R328). -/
def dcCountersBody (p : Packet) (s : State) : State :=
  answer p .ok (s.car.counters.toList.flatMap (leBytes 4)) s

/-- The injected car is whole: the checks of Table 15-2, then the queue; the reply follows application (R315). -/
def injectWhole (p : Packet) (c : Bytes) (s : State) : State :=
  match carCheck s c with
  | some d => answer p d.status d.reason (dropCar c d s)
  | none =>
    queueCar { bytes := c, mast := Config.injectMast s.free, ref := Instant.zero, cmd := some (p.src.booth, p.tag) } s.draw

/-- DC_INJECT (chapter 7, R315). -/
def dcInjectBody (p : Packet) (s : State) : State :=
  let off := leField p.payload 0 2
  let total := leField p.payload 2 2
  let d := p.payload.drop 4
  let held := match s.cmd.inject with | some x => x.1 | none => []
  let same := match s.cmd.inject with | some x => decide (x.2 = total) | none => true
  let s1 := s.onCmd fun c => { c with inject := none }
  if total = 0 ∨ 4096 < total ∨ off ≠ held.length ∨ same = false ∨ total < off + d.length then
    answer p .badParam [] s1
  else if off + d.length < total then done p (s1.onCmd fun c => { c with inject := some (held ++ d, total) })
  else injectWhole p (held ++ d) s1

/-! ### Commands -/

def execDcStatus (p : Packet) (s : State) : Host.Outcome State Fault Refusal :=
  .next (simpleCommand op_dcStatus p (dcStatusBody p) s)
def execDcSubscribe (p : Packet) (s : State) : Host.Outcome State Fault Refusal :=
  .next (simpleCommand op_dcSubscribe p (dcSubscribeBody p) s)
def execDcInject (p : Packet) (s : State) : Host.Outcome State Fault Refusal :=
  .next (simpleCommand op_dcInject p (dcInjectBody p) s)
def execDcCounters (p : Packet) (s : State) : Host.Outcome State Fault Refusal :=
  .next (simpleCommand op_dcCounters p (dcCountersBody p) s)
def execDcHeaderDecode (bits : BitVec 24) (acq : Acquire) (s : State) : Host.Outcome State Fault Refusal :=
  .next (headerDecodes bits acq s)
def execDcFrameEnd (env : FrameEnv) (s : State) : Host.Outcome State Fault Refusal := .next (frameEnds env s)
def execCarPartialTimeout (mast tag : Half) (s : State) : Host.Outcome State Fault Refusal :=
  .next (partialTimesOut mast tag s)

end Sys2Proof.Machine
end

