-- ==== Sys2Proof/Machine/Tracking.lean ====
section
/-! DEFINITION. VCORE tracking (R25 to R31), the Keep's lease (R76 to R79), the current limit of the buck (R62) and the
blink of STATUS_LED (R170). -/

namespace Sys2Proof.Machine

/-! ### Tracking -/

/-- A block of Table 2-1 is floor-setting: the ungated ones always, the others while their gates are open (R25). -/
def floorSetting (s : State) (code : Nat) : Bool :=
  let open_ (i : Nat) : Bool := !s.pwr.gateStat.getLsbD i
  if code = 2 then open_ 0 else if code = 4 then open_ 4 else if code = 5 then open_ 1 else if code = 8 then open_ 5
  else decide (code ≤ 10)

/-- The readings of floor-setting blocks. -/
def floorReadings (s : State) (rs : List (Nat × Nat)) : List (Nat × Nat) := rs.filter fun r => floorSetting s r.1

/-- The highest reading; the first of equals. -/
def worst : List (Nat × Nat) → Option (Nat × Nat)
  | [] => none
  | r :: rs =>
    match worst rs with
    | none => some r
    | some x => if r.2 < x.2 then some x else some r

/-- The reading above 85 % of the lowest block code: errors of one instant come in order of block code (R377). -/
def firstHigh : List (Nat × Nat) → Option (Nat × Nat)
  | [] => none
  | r :: rs =>
    match firstHigh rs with
    | none => if 85 < r.2 then some r else none
    | some x => if 85 < r.2 ∧ r.1 ≤ x.1 then some r else some x

/-- A canary reads above 85 %: VCORE rises by 30 mV, or at 0.90 V an episode of R29 begins with the block and reading of
`high` (R27, R29, R31). -/
def canaryHigh (src : Nat) (high : Nat × Nat) (s : State) : State :=
  let s0 := s.onPwr fun p => { p with floorSrc := src }
  if s.pwr.level < 35 then raise .vcoreRaise (s0.onPwr fun p => { p with level := min 35 (p.level + 3) })
  else if s.pwr.limit then s0
  else
    raise .canaryLimit
      (writeErr 0x001 (BitVec.ofNat 32 high.1) (BitVec.ofNat 32 high.2) (s0.onPwr fun p => { p with limit := true }))

/-- The level after a pass over the readings of floor-setting blocks (R26, R27, R29). -/
def passLevel (rs : List (Nat × Nat)) (s : State) : State :=
  match worst (floorReadings s rs) with
  | none => s
  | some w =>
    if 85 < w.2 then canaryHigh w.1 ((firstHigh (floorReadings s rs)).getD w) s
    else
      let down := decide (w.2 ≤ 75) && s.pwr.releasing == 0
      s.onPwr fun p =>
        { p with limit := false, floorSrc := w.1, level := if down then p.level - 1 else p.level }

/-- A block of codes 2, 4, 5 or 8 is floor-setting (R26). -/
def anyCanaryGate (s : State) : Bool := floorSetting s 2 || floorSetting s 4 || floorSetting s 5 || floorSetting s 8

/-- A pass that is none of those of every 250 µs: a pass of sleep (R26, R69). -/
def sleepPass (s : State) : Bool := !anyCanaryGate s && !s.pwr.fastPass

/-- The idle VIN reading (R69). -/
def idleSample (mv : Half) (s : State) : State := idleReading mv (s.onPwr fun p => { p with wakeDue := false })

/-- The passes of every 250 µs go on while a gate is open, and after that until a pass leaves VCORE unchanged (R26). -/
def passRate (old : Nat) (s : State) : State :=
  s.onPwr fun p => { p with fastPass := anyCanaryGate s || (p.fastPass && decide (p.level ≠ old)) }

/-- A tracking pass (R26, R353). -/
def makePass (rs : List (Nat × Nat)) (temp : Int) (s : State) : State :=
  passRate s.pwr.level (passTime temp ((passLevel rs s).onPwr fun p => { p with dieTemp := temp }))

/-- TRACKING_PASS: in FIXED mode none is made (R31); a pass of sleep and a wake sample VIN (R69). -/
def trackingPass (e : TrackEnv) (s : State) : State :=
  if !alive s then s
  else
    let s1 := if bits s.pwr.trackCtrl 0 2 = 0 then makePass e.readings e.temp s else s
    if s.pwr.wakeDue || (sleepPass s && decide (bits s.pwr.trackCtrl 0 2 = 0)) then idleSample e.vinMv s1 else s1

/-- CANARY_TRIP (R27). -/
def canaryTrips (block : Fin 11) (percent : Nat) (s : State) : State :=
  if alive s && floorSetting s block.val && decide (85 < percent) then canaryHigh block.val (block.val, percent) s else s

/-- PRE_RAISE_DONE (R28): the regulator reports the level, and the blocks that wait are released. -/
def preRaiseDone (s : State) : State :=
  if s.pwr.releasing = 0 then s
  else
    s.onPwr fun p =>
      { p with level := max p.level p.preTarget, raising := false, preTarget := 0
               gateStat := p.gateStat &&& ~~~ p.releasing, releasing := 0 }

/-- PRE_RAISE_DONE: a transfer that waited for the PBUS engine starts (R28, R133). -/
def preRaised (s : State) : State :=
  let t := preRaiseDone s
  match t.pb.xfer with
  | some x =>
    (match x.wait with
     | some run => beginXfer { x with wait := none } run t
     | none => t)
  | none => t

/-! ### Leases -/

/-- The slot brings a TIME or REVOKE car: types 1, 4 and 5. -/
def leaseSlot (p : SlotPlan) : Bool := priTypes p.types

/-- `SP_KEEP_OVERRIDE` [4:0] (Table 10-4). -/
def overrideBits (s : State) : BitVec 5 := BitVec.ofNat 5 (cellNat s 8)

/-- LEASE_START (R76 to R78): every block of the radio chain, or none. -/
def leaseStarts (p : SlotPlan) (s : State) : State :=
  let req : BitVec 5 := s.pwr.gateReq.truncate 5
  if !(radioUp s && leaseSlot p && s.pwr.leased == 0) then s
  else if req &&& ~~~ overrideBits s ≠ 0 then raise .gateBlocked s
  else
    radioSettle (raiseIf (req != 0) .gateOverride
      (s.onPwr fun x => { x with leased := 0x1F, override_ := req }))

/-- LEASE_END (R77, R78). -/
def leaseEnds (s : State) : State := if s.pwr.leased = 0 then s else runListens (endLease s)

/-- LEASE_EXPIRE (R79): with a request pending, or after an override, the frame is discarded. -/
def leaseExpires (s : State) : State :=
  if s.pwr.leased = 0 then s
  else
    let cut := s.pwr.gatePend != 0 || s.pwr.override_ != 0
    runListens (endLease (if cut then afterFrame CalRun.none (discardFrame s) else s))

/-! ### Supply and LED -/

/-- VSYS_CURRENT_LIMIT (R62). -/
def vsysLimits (acting : Bool) (s : State) : State :=
  if s.phase = .unpowered then s else s.onPwr fun p => { p with vsysLimit := acting }

/-- LED_BLINK_PERIOD: in running by `DOOR_LED_CFG` mode 2, which takes effect at a period start; in hold-safe by
Table 3-6 (R170). -/
def ledBlinks (b : BlinkStep) (s : State) : State :=
  match b with
  | .periodStart =>
    if s.phase = .holdSafe then s.onDoor fun d => { d with ledOn := true }
    else if s.phase = .running ∧ bits s.door.ledCfg 0 2 = 2 then
      s.onDoor fun d => { d with ledOn := true, ledCur := d.ledCfg }
    else s
  | .sinkEnd =>
    if s.phase = .holdSafe ∨ (s.phase = .running ∧ bits s.door.ledCur 0 2 = 2) then
      s.onDoor fun d => { d with ledOn := false }
    else s

/-! ### Commands -/

def execTrackingPass (env : TrackEnv) (s : State) : Host.Outcome State Fault Refusal := .next (trackingPass env s)
def execCanaryTrip (block : Fin 11) (percent : Nat) (s : State) : Host.Outcome State Fault Refusal :=
  .next (canaryTrips block percent s)
def execPreRaiseDone (s : State) : Host.Outcome State Fault Refusal := .next (preRaised s)
def execLeaseStart (plan : SlotPlan) (s : State) : Host.Outcome State Fault Refusal := .next (leaseStarts plan s)
def execLeaseEnd (s : State) : Host.Outcome State Fault Refusal := .next (leaseEnds s)
def execLeaseExpire (s : State) : Host.Outcome State Fault Refusal := .next (leaseExpires s)
def execVsysCurrentLimit (acting : Bool) (s : State) : Host.Outcome State Fault Refusal := .next (vsysLimits acting s)
def execLedBlinkPeriod (at_ : BlinkStep) (s : State) : Host.Outcome State Fault Refusal := .next (ledBlinks at_ s)

end Sys2Proof.Machine
end

