-- ==== Sys2Proof/Machine/Boot.lean ====
section
/-! DEFINITION. Supplies and power (R43, R65 to R68, R82 to R84, R406), the Keep's start with the sensing of pins and the
selection of a slot (R44 to R50, R85, R91 to R93), and the release of the Ringmaster (R86, R87). -/

namespace Sys2Proof.Machine

/-! ### Power -/

/-- The rails are good and the reset phase begins: POWER_ON when the always-on domain started from zero, BROWNOUT after a
powering down (R67, R82, R406). -/
def startUp (s : State) : State :=
  let c : Cause := if s.ao.afterDown then .brownout else .powerOn
  let s1 := clearVolatile s
  (s1.onPwr fun p => { p with vinOk := true, vsysOk := true, vddioOk := true, vnvmOk := true, pgood := true }).onAo
    fun a => { a with causes := causeBit c, seen := a.seen ||| causeBit c }

/-- RAIL_START (Table 4-4, R406). -/
def railStarts (r : RailResult) (s : State) : State :=
  if s.phase = .unpowered then (match r with | .good => startUp s | .tripped => s) else s

/-- POWER_ON_RESTART (R67). -/
def restarts (s : State) : State := if s.phase = .unpowered ∧ s.ao.afterDown = true then startUp s else s

/-- ALWAYS_ON_LOSS (R67). -/
def aoLost (s : State) : State := if s.phase = .unpowered then { s with ao := Ao.start } else s

/-- Every credential whose intake has completed is judged; no movement starts (R226). -/
def judgeAll : Nat → State → State
  | 0, s => s
  | n + 1, s => judgeAll n (verdict { ecc := [], mid := false, second := false } s)

/-- The POWER_DOWN entry: written, missing, or torn; an entry torn before is first made LOST (R66, R68, R362). -/
def powerDownEntry (t : LogTear) (s : State) : State :=
  match t with
  | .written => logMake 0x0D srcDevice 0 (leBytes 4 (vinMon s).toNat) (recoverLog s)
  | .missing => s
  | .torn => if logSealed s then s else s.onNv fun n => { n with log := { n.log with torn := true } }

/-- The rails are off: everything but the nonvolatile state and the always-on domain is gone. -/
def unpower (vsys : Bool) (s : State) : State :=
  let s1 := { clearVolatile s with phase := .unpowered }
  let s2 := s1.onDoor fun d => { d with tamperIn := false, credWake := false }
  (s2.onPwr fun p => { p with vinOk := false, vsysOk := false, vnvmOk := false, pgood := false, vsysLimit := false }).onAo
    fun a => { a with afterDown := true, vsysTrip := vsys, causes := 0 }

/-- The tamper latch as powering down leaves it: an assertion in it is latched (R59). -/
def latchDown (tamper : Bool) (s : State) : State :=
  if tamper && s.pwr.vddioOk then s.onAo fun a => { a with tamper := true, tamperStart := true } else s

/-- POWERING_DOWN (Table 4-5, R59, R66 to R68, R226): the log is written once the Keep has started. -/
def powersDown (c : DownCause) (t : LogTear) (tamper : Bool) (s : State) : State :=
  if s.phase = .unpowered then s
  else
    let s1 := s.onVd fun v => { v with noMove := true }
    let s2 := if alive s then closeWindow (judgeAll s.vd.intake.length s1) else s1
    unpower (decide (c = .vsys)) (latchDown tamper (if s.phase = .reset then s2 else powerDownEntry t s2))

/-- VDDIO_UV (R43, R84). -/
def vddioDrops (s : State) : State :=
  if !s.pwr.vddioOk then s
  else
    let s1 := s.onPwr fun p => { p with vddioOk := false }
    if s.phase = .unpowered then s1 else reset .vddioUv s1

/-- VDDIO_RETURN (R84): the device drives NRST low before the reset ends. -/
def vddioReturns (s : State) : State :=
  if s.pwr.vddioOk then s
  else
    let s1 := s.onPwr fun p => { p with vddioOk := true }
    if s.phase = .reset then s1.onBoot fun b => { b with nrstDrive := true } else s1

/-- SUPPLY_UV_RESET (R65, R66): PGOOD is low until the rails are good again (Table 3-6); an entry whose turn had come may be
left torn. -/
def supplyUv (r : UvRail) (torn : Bool) (s : State) : State :=
  if s.phase = .unpowered then s
  else
    let s1 := if torn && alive s && s.vd.wait != [] then powerDownEntry .torn s else s
    let s2 := s1.onPwr fun p => { p with pgood := false, vnvmOk := p.vnvmOk && r != .vnvm }
    reset (match r with | .vcore => .vcoreUv | .vnvm => .vnvmUv) s2

/-- NRST_RESET (R83): between 200 ns and 2 µs the device may or may not reset (log 10). -/
def nrstLow (ns : Nat) (s : State) : State :=
  if s.phase = .unpowered ∨ s.pwr.vddioOk = false ∨ ns < 200 then s
  else if 2000 ≤ ns then reset .nrstPin s
  else if Config.shortPulseResets s.free then reset .nrstPin s.draw
  else s.draw

/-! ### Sensing -/

/-- Strap code from the voltage in millivolts (Table 3-3). -/
def strapCode (mv : Nat) : Nat :=
  if mv < 50 then 0 else if mv < 160 then 1 else if mv < 300 then 2 else if mv < 500 then 3
  else if mv < 760 then 4 else if mv < 1100 then 5 else if mv < 1500 then 6 else 7

/-- Base address of a strap code (Table 3-3). -/
def strapBase (c : Nat) : BitVec 7 :=
  match c with
  | 0 => 0x20 | 1 => 0x28 | 2 => 0x30 | 3 => 0x38 | 4 => 0x40 | 5 => 0x48 | 6 => 0x58 | _ => 0x60

/-- Rest code from the two readings of R47. -/
def restOf (a b : PinReading) : RestCode :=
  match a, b with
  | .low, .low => .low
  | .high, .high => .high
  | _, _ => .float

/-- The sensing sequencer's results: the strap, the mask address, the rest codes (R44 to R50, R107); it senses pins that
nothing drives (R60). -/
def sense (e : BootEnv) (s : State) : State :=
  let c := strapCode e.addrMv
  let rest : Vector RestCode 7 := Vector.ofFn fun i : Fin 7 => restOf (e.readings.first.get i) (e.readings.second.get i)
  (s.onHb fun h =>
    { h with strap := some (c, strapBase c)
             addrCfg := (h.addrCfg &&& 0xFF80FFFF) ||| at_ 16 (strapBase c).toNat }).onDoor
    fun d => { d with rest := rest, pins := Vector.replicate 7 .z }

/-! ### The Keep's start -/

def allCauses : List Cause :=
  [.powerOn, .brownout, .vddioUv, .vnvmUv, .vcoreUv, .nrstPin, .keepFault, .trialWdt, .update, .lifecycle, .devReset]

/-- The primary cause: the asserted one with the lowest code (R82). -/
def primary (s : State) : Cause :=
  match allCauses.find? fun c => s.ao.causes &&& causeBit c != 0 with
  | some c => c
  | none => .powerOn

/-- `BOOT_CAUSE` (R82). -/
def causeWord (s : State) : Word :=
  at_ 0 (primary s).code ||| at_ 16 s.ao.seen.toNat
    ||| at_ 28 (bit (s.ao.vsysTrip && s.ao.seen &&& causeBit .brownout != 0))

/-- The reset ends, every source released and the rails good: its cause is recorded and the booting phase begins
(R82, R84, R85, Table 3-6). -/
def endReset (s : State) : State :=
  let c := primary s
  let w := causeWord s
  let n := if c = .keepFault then s.ao.keepFaults + 1 else 0
  let s1 := ({ s with phase := .booting } : State).onPwr fun p => { p with pgood := true, vnvmOk := true }
  (s1.onAo fun a => { a with keepFaults := n, causes := 0 }).onBoot fun b =>
    { b with cause := some c, causeReg := w, nrstDrive := false, stopped := decide (3 ≤ n) }

/-- A retirement that a power loss cut short is completed, and slots of a RETIRED device that are not zero are zeroised
(R103). The start then goes on with no further reset (log 52). -/
def resumeRetire (s : State) : State :=
  if lifeCycle s = .retired then zeroiseRest 64 s else if s.nv.br.retireMark then finishRetire s else s

/-- A confirm's second word write that was still to be made (R99). -/
def resumeConfirm (s : State) : State :=
  match s.nv.br.floorPend with
  | some w => (raiseFloor w.toNat s).2
  | none => s

/-- A slot that may be booted when the chosen one fails: not REJECTED (R91, R97). -/
def fallbackOk (s : State) (sl : Slot) : Bool := slotState s sl != .rejected && imageOk s sl

/-- The image of a slot boots: the Keep takes over its header fields and owner key (R105, R405, R407). -/
def bootImage (sl : Slot) (trial fallback failed : Bool) (s : State) : State :=
  let own := ownerKeyOf s sl
  let key := if slotField s sl 6 2 % 2 = 1 ∧ sha256 own = ownerHash s then some own else none
  let v := slotField s sl 8 4
  let ts := slotField s sl 36 2
  let sc := decide (slotField s sl 6 2 / 2 % 2 = 1)
  s.onBoot fun b =>
    { b with slot := sl, trial := trial, fallback := fallback, trialFailed := failed, verified := true
             ownerKey := key, version := BitVec.ofNat 32 v, trialS := ts, selfConfirm := sc }

/-- The debug port's state by the life-cycle (R104, Table 5-3). -/
def dbgOf (l : LifeCycle) : DbgState :=
  match l with | .blank => .open_ | .provisioned => .challenge | _ => .closed

/-- Neither slot passes: the Keep stays in booting, in BLANK and PROVISIONED in the loader state (R92, R93). -/
def noImage (s : State) : State :=
  s.onBoot fun b =>
    { b with slot := s.nv.br.active, written := true, dbg := dbgOf (lifeCycle s)
             loader := decide (lifeCycle s = .blank ∨ lifeCycle s = .provisioned) }

/-- The slot that failed becomes REJECTED, unless the boot record holds it as EMPTY (R91). -/
def rejectFailed (sl : Slot) (s : State) : State := if slotState s sl = .empty then s else setSlot sl .rejected s

/-- Cases 3 and 4 of R91 for a chosen slot that failed. -/
def fallBack (chosen : Slot) (trial failed : Bool) (s : State) : State :=
  let rest := otherSlot chosen
  let s1 := if trial then setSlot chosen .rejected s else s
  if fallbackOk s1 rest then
    let s2 := setSlot rest .active (rejectFailed chosen s1)
    bootImage rest false true (failed || trial)
      (s2.onNv fun n => { n with br := { n.br with active := rest, due := false, started := false } })
  else noImage s1

/-- A slot is chosen: it boots, or cases 3 and 4 of R91 apply. -/
def bootChosen (sl : Slot) (trial rejected : Bool) (s : State) : State :=
  if imageOk s sl then bootImage sl trial rejected rejected s else fallBack sl trial rejected s

/-- The Keep selects the slot to boot (R91). -/
def selectSlot (s : State) : State :=
  let other := inactive s
  let s1 := activationDue s
  if slotState s1 other = .trial ∧ s1.nv.br.started = true then
    bootChosen s1.nv.br.active false true
      ((setSlot other .rejected s1).onNv fun n => { n with br := { n.br with due := false, started := false } })
  else if slotState s1 other = .trial ∧ s1.nv.br.due = true then
    bootChosen other true false (s1.onNv fun n => { n with br := { n.br with started := true } })
  else bootChosen s1.nv.br.active false false s1

/-- The start-up test of the entropy source, after which the DRBG is instantiated; a failure is the first one (R209, R210). -/
def startRng (samples : List Bool) (s : State) : State :=
  if startUpOk samples then s.onKeep fun k => { k with drbgSeeds := k.drbgSeeds + 1 } else rngFails 1 s

/-- RESET_RELEASE (R44 to R50, R82 to R85, R91, R103, R209). -/
def resetReleases (e : BootEnv) (s : State) : State :=
  if s.phase ≠ .reset ∨ s.pwr.vddioOk = false then s
  else
    let s1 := sense e (endReset s)
    if s1.boot.stopped then s1
    else if !e.romOk || !e.sporeOk then reset .keepFault s1
    else selectSlot (resumeConfirm (resumeRetire (startRng e.rng s1)))

/-! ### The release of the Ringmaster -/

/-- The running phase begins: causes seen start anew, the trial watchdog starts, the debug port takes its state
(R82, R97, R104). -/
def beginRun (s : State) : State :=
  let s1 := { s with phase := .running }
  (s1.onAo fun a => { a with seen := 0, vsysTrip := false, afterDown := false, unsure := a.unsure && timeKnown s }).onBoot fun b =>
    { b with written := true, dbg := dbgOf (lifeCycle s), trialStart := if b.trial then some s.ao.rtc else none }

/-- The table region and the SRAM booth-data area are zeroed (R179). -/
def zeroSram (s : State) : State :=
  repair .phys sramBoothBase (tableEnd - sramBoothBase) { s with mem := memZero s.mem sramBoothBase tableEnd }

/-- Removals that a delta's commit left pending are completed (R321). -/
def finishRemovals (s : State) : State :=
  if s.nv.pendRemove = [] then s
  else (removeIds s.nv.pendRemove s).onNv fun n => { n with pendRemove := [] }

/-- The door record is written back, with every lock bit 0 (R234). -/
def restoreDoor (s : State) : State :=
  match s.nv.doorRec with
  | none => s
  | some r =>
    setInCfg (r.inCfg.zeroExtend 32) (s.onDoor fun d =>
      { d with outCfg := r.idle.zeroExtend 32, timing := r.timing, motor := r.motor })

/-- A band-level entry as the rebuild finds it: its codes are the analogue circuit's (log 18). -/
def bandEntry (k : Nat) (temp : Int) (div : Nat) : CalEntry :=
  { key := .band div, pvt := (Config.analogByte k).toNat, acq := (Config.analogByte (k + 1)).toNat
    gain := (Config.analogByte (k + 2)).toNat, temp := temp, crcOk := true }

/-- The calibration table is loaded, or rebuilt at its band level when it is missing or fails its check (R87). -/
def loadCal (ok : Bool) (s : State) : State :=
  if ok && s.nv.calHeader then s
  else
    let t := s.pwr.dieTemp
    let es := ([8, 4, 50, 44, 40, 36] : List Nat).zipIdx.map fun x => bandEntry (s.free + 3 * x.2) t x.1
    let s1 := s.onNv fun n => { n with calHeader := true, calTab := es }
    { s1.onBoot fun b => { b with calRebuilt := true } with free := s.free + 18 }

/-- `SP_REST_EXPECT` has been written and differs from `DOOR_REST[15:0]` (R53). -/
def restMismatch (s : State) : Bool := cellWritten s 7 && decide (cellNat s 7 ≠ (doorRest s).toNat % 65536)

/-- The Juggler section of the running image is copied into program memory and the Juggler released at its image vector
(R87, Table 5-2). -/
def releaseJuggler (s : State) : State :=
  let sl := s.boot.slot
  s.onJug fun j =>
    { j with released := true, prog := slotRead s sl (256 + slotField s sl 28 4) (slotField s sl 32 4)
             progEntry := slotField s sl 24 4 }

/-- The Juggler is released, READY set, EV_BOOT_DONE raised and the BOOT entry written (R51, R53, R87, R91). -/
def bootDone (s : State) : State :=
  let s1 := raise .bootDone ((releaseJuggler s).onBoot fun b => { b with ready := true })
  let s2 := raiseIf (!restOk s) .restFloat s1
  let s3 := raiseIf (restMismatch s) .restMismatch s2
  let s4 := raiseIf s.boot.fallback .slotFallback s3
  let s5 := raiseIf s.boot.trialFailed .trialFailed s4
  logMake 0x0C srcDevice (if restMismatch s then 0x0200 else 0)
    (leBytes 4 s5.boot.causeReg.toNat ++ leBytes 4 (bootStat s5).toNat ++ leBytes 4 s5.boot.version.toNat
      ++ leBytes 2 ((doorRest s5).toNat % 65536)) s5

/-- The first tracking pass, made in TRACK mode, the mode after a reset (R30). -/
def firstPass (e : ReleaseEnv) (s : State) : State := makePass e.readings e.temp s

/-- RINGMASTER_RELEASE (R86, R87, R179, R234, R321, R362). -/
def ringmasterReleases (e : ReleaseEnv) (s : State) : State :=
  if s.phase ≠ .booting ∨ s.boot.verified = false ∨ s.pwr.vddioOk = false ∨ s.pwr.pgood = false then s
  else
    let s1 := openGate 5 (firstPass e (beginRun s))
    let s2 := idleOutputs (restoreDoor (finishRemovals (recoverLog (zeroSram s1))))
    let s3 := if s2.ao.tamper then reportTamper s2 else s2
    radioSettle (bootDone (loadCal e.calHeaderOk (noteCrystal s3)))

/-! ### Commands -/

def execRailStart (r : RailResult) (s : State) : Host.Outcome State Fault Refusal := .next (railStarts r s)
def execPoweringDown (cause : DownCause) (tear : LogTear) (tamper : Bool) (s : State) :
    Host.Outcome State Fault Refusal :=
  .next (powersDown cause tear tamper s)
def execPowerOnRestart (s : State) : Host.Outcome State Fault Refusal := .next (restarts s)
def execAlwaysOnLoss (s : State) : Host.Outcome State Fault Refusal := .next (aoLost s)
def execVddioUv (s : State) : Host.Outcome State Fault Refusal := .next (vddioDrops s)
def execVddioReturn (s : State) : Host.Outcome State Fault Refusal := .next (vddioReturns s)
def execSupplyUvReset (rail : UvRail) (torn : Bool) (s : State) : Host.Outcome State Fault Refusal :=
  .next (supplyUv rail torn s)
def execNrstReset (widthNs : Nat) (s : State) : Host.Outcome State Fault Refusal := .next (nrstLow widthNs s)
def execResetRelease (env : BootEnv) (s : State) : Host.Outcome State Fault Refusal := .next (resetReleases env s)
def execRingmasterRelease (env : ReleaseEnv) (s : State) : Host.Outcome State Fault Refusal :=
  .next (ringmasterReleases env s)

end Sys2Proof.Machine
end

