-- ==== Sys2Proof/Machine/Fm.lean ====
section
/-! DEFINITION. FM: the hold, tuning and scanning (R332, R333, R337 to R339, R243), and alternative frequencies
(R346, R348). -/

namespace Sys2Proof.Machine

/-! ### The radio under FM -/

/-- Nothing keeps the radio from FM LISTEN: no window, reference present (R247, R250). -/
def fmReady (s : State) : Bool := radioUp s && s.rx.window.isNone && !s.rx.refLost

/-- Retune to a station (R241, R243); `tune` says that the audio passes start anew. -/
def fmRetune (freq : Nat) (tune : Bool) (cal : CalRun) (s : State) : State :=
  if fmReady s then fmListen freq tune cal s else s

/-- A fast-settle reading of a station, and whether its retune locked (R241, R269). -/
def fastStep (freq : Nat) (cal : CalRun) (s : State) : State × Bool :=
  let t := retune (fmTarget freq) cal (radioSettle (listenOn .fm freq false s))
  (if t.2 then fastReading (clocks t.1) else clocks t.1, t.2)

/-- Fast-settle readings of stations in order, each with what its retune meets; a station whose calibration fails reads as
−128 dBm (R243). -/
def fastSteps : List (Nat × CalRun × Int) → State → State × List Int
  | [], s => (s, [])
  | (f, c, r) :: rest, s =>
    let t := fastStep f c s
    let u := fastSteps rest t.1
    (u.1, (if t.2 then r else -128) :: u.2)

/-- The radio goes back to the held station, or to sleep when nobody holds FM. -/
def fmBack (cal : CalRun) (s : State) : State :=
  match s.fm.hold with
  | some h => fmRetune h.freq true cal s
  | none => if s.rx.mode = .fm then radioSettle (s.onRx fun r => { r with mode := .sleep }) else s

/-- A switch that is being verified is given up: the previous frequency is held again. -/
def dropTry (s : State) : State :=
  match s.fm.afTry with
  | none => s
  | some t => s.onFm fun f => { f with afTry := none, hold := f.hold.map fun h => { h with freq := t.1 } }

/-! ### Commands of the holder, one at a time -/

/-- FM_TUNE takes or keeps the hold and retunes; the decoder starts anew. In RETIRED the radio is not started and the
command measures nothing (Table 5-3). -/
def startTune (b : Booth) (t : Byte) (freq : Nat) (flags : Byte) (cal : CalRun) (s : State) : State :=
  let s0 := dropTry s
  let off := lifeCycle s0 == .retired
  let job : FmTune :=
    { booth := b, tag := t, calFailed := off, prev := match s0.fm.hold with | some h => h.freq | none => 0 }
  let h : FmHold := { booth := b, freq := freq, flags := flags }
  let s1 := s0.onFm fun f =>
    { f with hold := some h, tune := some job, i2s := flags.getLsbD 0 && !off && !s0.pwr.battEnd, rds := Rds.start, af := [] }
  fmRetune freq true cal (radioSettle s1)

/-- FM_SCAN holds FM for its duration and tunes to its first step (R339). -/
def startScan (b : Booth) (t : Byte) (start stop step : Nat) (thr : Int) (cal : CalRun) (s : State) : State :=
  let s0 := dropTry s
  let flags : Byte := match s0.fm.hold with | some h => h.flags | none => 0
  let job : FmScan :=
    { booth := b, tag := t, start := start, stop := stop, step := step, thr := thr, prev := s0.fm.hold }
  let h : FmHold := { booth := b, freq := start, flags := flags }
  fmRetune start false cal (s0.onFm fun f => { f with hold := some h, scan := some job })

def startFm : FmReq → State → State
  | .tune b t f g c, s => startTune b t f g c s
  | .scan b t x y d r c, s => startScan b t x y d r c s

/-- An FM command is in progress. -/
def fmBusy (s : State) : Bool := s.fm.tune.isSome || s.fm.scan.isSome

/-- The next waiting command of the holder starts. -/
def nextFm (s : State) : State :=
  if fmBusy s then s
  else
    match s.fm.waiting with
    | [] => s
    | q :: qs => startFm q (s.onFm fun f => { f with waiting := qs })

/-- A command of the holder starts, or waits for the one in progress. -/
def enterFm (q : FmReq) (s : State) : State := nextFm (s.onFm fun f => { f with waiting := f.waiting ++ [q] })

/-- The booth that keeps another one from FM (R332). -/
def otherHolder (b : Booth) (s : State) : Option Booth :=
  match s.fm.hold with
  | some h => if h.booth = b then none else some h.booth
  | none => none

/-- The radio chain for FM; with audio, the I²S output and battery power (R337, R72). -/
def needsFm (audio : Bool) (_ : State) : Needs :=
  { juggler := true, gates := if audio then 0x04F else 0x00F, power := audio }

/-- A frequency in 10 kHz units is in range (R333). -/
def freqOk (f : Nat) : Bool := decide (6400 ≤ f) && decide (f ≤ 10800)

/-- FM_TUNE (R332, R333). -/
def fmTuneBody (p : Packet) (cal : CalRun) (s : State) : State :=
  let freq := leField p.payload 0 2
  let flags := byteAt p.payload 2
  if !freqOk freq || flags.getLsbD 7 || byteAt p.payload 3 != 0 then answer p .badParam [] s
  else
    match otherHolder p.src.booth s with
    | some b => answer p .inUse [BitVec.ofNat 8 b.val] s
    | none => enterFm (.tune p.src.booth p.tag freq flags cal) s

/-- FM_SCAN (R339). -/
def fmScanBody (p : Packet) (cal : CalRun) (s : State) : State :=
  let start := leField p.payload 0 2
  let stop := leField p.payload 2 2
  let step := (byteAt p.payload 4).toNat
  if !freqOk start || !freqOk stop || decide (stop < start) || !(step == 5 || step == 10 || step == 20)
      || decide ((stop - start) % step ≠ 0) then answer p .badParam [] s
  else
    match otherHolder p.src.booth s with
    | some b => answer p .inUse [BitVec.ofNat 8 b.val] s
    | none => enterFm (.scan p.src.booth p.tag start stop step (signedByte (byteAt p.payload 5)) cal) s

/-- FM_STOP (R332, Table 16-2): commands of the holder that run or wait end with it. -/
def fmStopBody (p : Packet) (s : State) : State :=
  match s.fm.hold with
  | none => done p s
  | some h =>
    if h.booth = p.src.booth then done p (endFm 1 (cancelTuning s))
    else if p.src.booth = 0 then done p (endFm 2 (cancelTuning s))
    else answer p .inUse [BitVec.ofNat 8 h.booth.val] s

/-- A TUNE record for the holder (R344, Table 16-7). -/
def tuneRecord (reason : Byte) (prev : Nat) (s : State) : State :=
  match s.fm.hold with
  | some h => putRds h.booth 0x10 0 0xFF (reason :: leBytes 2 prev) s
  | none => s

/-- FM_TUNE_DONE (R333, R243). -/
def tuneDone (m : FmMeasure) (s : State) : State :=
  match s.fm.tune with
  | none => s
  | some t =>
    if t.calFailed then
      nextFm (tuneRecord 1 t.prev (replyTo t.booth t.tag .ok [0x80, 0, 0, 0] (s.onFm fun f => { f with tune := none })))
    else if s.rx.mode = .fm then
      let r := byteOfInt m.rssi
      let reply : Bytes := [r, BitVec.ofNat 8 (min 255 m.snr), BitVec.ofNat 8 (bit m.pilot), 0]
      nextFm (tuneRecord 1 t.prev (replyTo t.booth t.tag .ok reply
        ((s.onFm fun f => { f with tune := none }).onRx fun x => { x with rssi := r })))
    else s

/-! ### The scan's list -/

/-- The reading of step `i`; a step without one counts as −128 dBm. -/
def readingAt (rssi : List Int) (i : Nat) : Int := rssi.getD i (-128)

/-- Step `i` of `n` is a candidate (R339 item 2). -/
def isCandidate (rssi : List Int) (thr : Int) (n i : Nat) : Bool :=
  decide (thr ≤ readingAt rssi i) && (i == 0 || decide (readingAt rssi (i - 1) < readingAt rssi i))
    && (decide (n ≤ i + 1) || decide (readingAt rssi (i + 1) ≤ readingAt rssi i))

/-- Steps of a scan. -/
def scanSteps (c : FmScan) : Nat := (c.stop - c.start) / c.step + 1

/-- The steps of a scan with what each meets. -/
def scanPlan (c : FmScan) (rssi : List Int) (cals : List CalRun) : List (Nat × CalRun × Int) :=
  (List.range (scanSteps c)).map fun i => (c.start + i * c.step, cals.getD i CalRun.none, readingAt rssi i)

/-- The candidates are tuned to on set F for their SNR (R339 item 3). -/
def confirmSteps : List (Nat × CalRun) → State → State
  | [], s => s
  | (f, c) :: rest, s => confirmSteps rest (fmListen f false c s)

/-- The candidates, ascending. -/
def scanCandidates (c : FmScan) (rssi : List Int) : List Nat :=
  (List.range (scanSteps c)).filter (isCandidate rssi c.thr (scanSteps c))

/-- The reply: candidates whose SNR is 10 dB or more, up to the first 64 (R339 item 4). `snr` holds one figure per
candidate. -/
def scanList (c : FmScan) (rssi : List Int) (snr : List Nat) : Bytes :=
  let good := ((scanCandidates c rssi).zip snr).filter fun x => decide (10 ≤ x.2)
  (good.take 64).flatMap fun x => leBytes 2 (c.start + x.1 * c.step) ++ [byteOfInt (readingAt rssi x.1)]

/-- FM_SCAN_DONE (R339): the retunes and readings of every step, the confirmation of the candidates, the list, and the
return; `cals` holds what the retunes of the steps meet, then those of the candidates. A scan that hold-safe or RETIRED kept
from receiving lists nothing. -/
def scanDone (rssi : List Int) (snr : List Nat) (cals : List CalRun) (back : CalRun) (s : State) : State :=
  match s.fm.scan with
  | none => s
  | some c =>
    let dead := s.fm.hold.isNone || lifeCycle s == .retired
    if dead then nextFm (fmBack back (afterScan (replyTo c.booth c.tag .ok [] s)))
    else if s.rx.mode = .fm then
      let r := fastSteps (scanPlan c rssi cals) s
      let found := (scanCandidates c r.2).map fun i => c.start + i * c.step
      let s1 := confirmSteps (found.zip ((cals.drop (scanSteps c)) ++ List.replicate found.length CalRun.none)) r.1
      nextFm (fmBack back (afterScan (replyTo c.booth c.tag .ok (scanList c r.2 snr) s1)))
    else s

/-! ### Alternative frequencies -/

/-- Candidates of a check, in list order (R348 item 2). -/
def afCandidates (h : FmHold) (s : State) : List Nat :=
  s.fm.af.filter fun f => f != h.freq && !(s.fm.afBad.any fun b => b.1 = f ∧ s.ao.rtc < b.2)

/-- The candidate with the highest reading; the first of equals. -/
def bestReading : List (Nat × Int) → Option (Nat × Int)
  | [] => none
  | x :: xs =>
    match bestReading xs with
    | none => some x
    | some y => if x.2 < y.2 then some y else some x

/-- A check may start (R346). -/
def checkDue (s : State) : Bool :=
  s.rx.mode == .fm && !fmBusy s && s.fm.afTry.isNone && s.fm.af != []
    && (match s.fm.hold with | some h => h.flags.getLsbD 6 | none => false)
    && (match s.fm.afTick with | some t => decide (t + 10 * 32768 ≤ s.ao.rtc) | none => true)

/-- AF_CHECK (R346, R348 items 1 to 3): a fast-settle reading of each candidate in list order, then the better station or
the held one again; the audio passes keep their contents. -/
def afChecks (held : Int) (readings : List Int) (cals : List CalRun) (back : CalRun) (s : State) : State :=
  match s.fm.hold, s.fm.rds.pi with
  | some h, some pi =>
    if !checkDue s then s
    else
      let s1 := s.onFm fun f => { f with afTick := some s.ao.rtc }
      let cs := afCandidates h s
      let r := fastSteps ((cs.zip readings).zipIdx.map fun x => (x.1.1, cals.getD x.2 CalRun.none, x.1.2)) s1
      match bestReading (cs.zip r.2) with
      | some (f, x) =>
        if held + 6 ≤ x then
          let h1 : FmHold := { h with freq := f }
          fmListen f false back (r.1.onFm fun y => { y with hold := some h1, afTry := some (h.freq, pi, 0) })
        else fmListen h.freq false back r.1
      | none => s1
  | _, _ => s

/-- AF_VERIFY (R348 items 4 and 5). -/
def afVerifies (back : CalRun) (s : State) : State :=
  match s.fm.afTry, s.fm.hold with
  | some (prev, _, n), some h =>
    if 2 ≤ n then raise .afSwitch (tuneRecord 2 prev (s.onFm fun f => { f with afTry := none }))
    else
      let s1 := fmRetune prev false back ((dropTry s).onFm fun f =>
        { f with afBad := (h.freq, s.ao.rtc + 60 * 32768) :: f.afBad.filter (·.1 ≠ h.freq) })
      raise .afReject (tuneRecord 3 h.freq s1)
  | _, _ => s

/-! ### Commands -/

def execFmTune (p : Packet) (cal : CalRun) (s : State) : Host.Outcome State Fault Refusal :=
  .next (command op_fmTune (needsFm ((byteAt p.payload 2).getLsbD 0)) p (fmTuneBody p cal) s)
def execFmScan (p : Packet) (cal : CalRun) (s : State) : Host.Outcome State Fault Refusal :=
  .next (command op_fmScan (needsFm false) p (fmScanBody p cal) s)
def execFmScanDone (rssi : List Int) (snr : List Nat) (cals : List CalRun) (back : CalRun) (s : State) :
    Host.Outcome State Fault Refusal :=
  .next (scanDone rssi snr cals back s)
def execFmStop (p : Packet) (s : State) : Host.Outcome State Fault Refusal :=
  .next (simpleCommand op_fmStop p (fmStopBody p) s)
def execFmTuneDone (m : FmMeasure) (s : State) : Host.Outcome State Fault Refusal := .next (tuneDone m s)
def execAfCheck (held : Int) (readings : List Int) (cals : List CalRun) (back : CalRun) (s : State) :
    Host.Outcome State Fault Refusal :=
  .next (afChecks held readings cals back s)
def execAfVerify (back : CalRun) (s : State) : Host.Outcome State Fault Refusal := .next (afVerifies back s)

end Sys2Proof.Machine
end

