-- ==== Sys2Proof/Machine/TimeLog.lean ====
section
/-! DEFINITION. Reading the time (R358), the leap second (R350), the crystal (R396), and reading, covering and releasing
the Lichen log (R364 to R367, R385). -/

namespace Sys2Proof.Machine

/-! ### Time -/

/-- Something was noted within the last 300 s (Table 17-1). -/
def within300 (s : State) (t : Option Nat) : Bool :=
  match t with | some k => decide (s.ao.rtc - k ≤ 300 * 32768) | none => false

/-- The sources byte (Table 17-1, R396). -/
def sources (s : State) : Byte :=
  BitVec.ofNat 8
    (bit (timeKnown s) + 2 * bit (within300 s s.ao.beaconTick) + 4 * bit (learned s s.ao.bin && !s.ao.rcSource)
      + 8 * bit (within300 s s.fm.ctTick) + 16 * bit s.fm.ctDisagree + 32 * bit (s.ao.leap != 0))

/-- TIME_GET (R358). -/
def timeGetBody (p : Packet) (s : State) : State :=
  answer p .ok (leBytes 4 (devSec s) ++ leBytes 4 (uMs s) ++ [sources s] ++ zeros 3) s

/-- An announced leap takes place when device time reaches the second after `LEAP_AT` (R350): an insertion repeats
`LEAP_AT`, a deletion passes over `LEAP_AT` + 1. -/
def leapTakes (s : State) : State :=
  if timeKnown s && s.ao.leap != 0 && decide ((s.ao.leapAt + 1) * fineSec ≤ s.ao.fine) then
    s.onAo fun a => { a with leap := 0, fine := if a.leap = 1 then a.fine - fineSec else a.fine + fineSec }
  else s

/-- The always-on domain runs: always but unpowered from the start (R67, R396). -/
def aoRuns (s : State) : Bool := s.phase != .unpowered || s.ao.afterDown

/-- X32_IN shows no oscillation for 8 ms (R396): the RC source takes over; the record comes at once, or once the Ringmaster
runs. -/
def crystalStops (s : State) : State :=
  if !aoRuns s || s.ao.rcSource then s
  else
    let s1 := (growU (rate144 s s.ao.bin) s).onAo fun a => { a with rcSource := true, rcTold := false, anchor := none }
    if alive s1 then noteCrystal s1 else s1

/-- The crystal has oscillated steadily for 1 s (R396). -/
def crystalReturns (s : State) : State :=
  if !aoRuns s || !s.ao.rcSource then s
  else (growU (rate144 s s.ao.bin) s).onAo fun a => { a with rcSource := false }

/-! ### The log -/

/-- `COVERED` of the latest checkpoint, all ones while none is held (R366). -/
def coveredSeq (s : State) : Nat := match s.nv.log.checkpoints with | [] => noSeq | c :: _ => c.covered

/-- Oldest held sequence, 0 while the log is empty (R366). -/
def oldestSeq (s : State) : Nat := match s.nv.log.entries.getLast? with | some e => e.seq | none => 0

/-- A sequence is not covered by a checkpoint. -/
def uncovered (s : State) (q : Nat) : Bool :=
  match s.nv.log.checkpoints with | [] => true | c :: _ => decide (c.covered < q)

/-- The flags byte of `LOG_INFO` (R366). -/
def logFlags (s : State) : Byte :=
  BitVec.ofNat 8
    (bit s.nv.log.sealed_ + 2 * bit (logFull s) + 4 * bit s.nv.log.overwritten
      + 8 * bit (s.nv.log.entries.any fun e => e.flags.getLsbD 10 && uncovered s e.seq))

/-- LOG_INFO (R366). -/
def logInfoBody (p : Packet) (s : State) : State :=
  answer p .ok (leBytes 5 (oldestSeq s) ++ leBytes 5 (newestSeq s) ++ leBytes 5 (coveredSeq s) ++ [logFlags s]) s

/-- An entry as read: a bad word's 8 bytes are 0x00 (R385 item 4). -/
def entryRead (s : State) (e : LogEntry) : Bytes :=
  (List.range 8).flatMap fun i => if isBad s .phys (logSlot e.seq + 8 * i) then zeros 8 else sub e.bytes (8 * i) 8

/-- The uncorrectable words of an entry are reported (R383, R384). -/
def entryErrors (e : LogEntry) (s : State) : State :=
  (List.range 8).foldl
    (fun s i => if isBad s .phys (logSlot e.seq + 8 * i) then deviceEcc .phys (logSlot e.seq + 8 * i) s else s) s

/-- Entries of a reply: from `first` on, in ascending order, at most `n`. -/
def logSpan (s : State) (first n : Nat) : List LogEntry :=
  ((s.nv.log.entries.filter fun e => decide (first ≤ e.seq ∧ e.seq < first + n))).reverse

/-- LOG_READ (R366). -/
def logReadBody (p : Packet) (ecc : List EccHit) (s0 : State) : State :=
  let first := leField p.payload 0 5
  let n := (byteAt p.payload 5).toNat
  if n = 0 ∨ 15 < n then answer p .badParam [] s0
  else if !s0.nv.log.entries.any (·.seq = first) then answer p .notFound [] s0
  else
    let s := applyHits ecc s0
    let es := logSpan s first n
    answer p .ok (es.flatMap (entryRead s)) (es.foldl (fun s e => entryErrors e s) s)

/-- The 128 bytes of a checkpoint record (Table 17-5). -/
def Checkpoint.bytes (c : Checkpoint) : Bytes := c.signed ++ padTo 64 c.sig

/-- LOG_CHECKPOINT (R365): the earliest held checkpoint that covers the sequence. -/
def logCheckpointBody (p : Packet) (s : State) : State :=
  match s.nv.log.checkpoints.reverse.find? fun c => decide (leField p.payload 0 5 ≤ c.covered) with
  | some c => answer p .ok c.bytes s
  | none => answer p .notFound [] s

/-- LOG_RELEASE (R367). -/
def logReleaseBody (p : Packet) (s : State) : State :=
  let q := leField p.payload 0 5
  if s.nv.log.entries = [] ∨ newestSeq s < q then answer p .notFound [] s
  else if q + 1 ≤ s.nv.log.release then done p s
  else
    let s1 := s.onNv fun n => { n with log := { n.log with release := q + 1, overwritten := false, overCount := 0 } }
    done p (logMake 0x12 (srcBooth p.src.booth) 0 (leBytes 5 q) s1)

/-- 10 s have passed since the newest entry, which no checkpoint covers yet (R364 case 2). -/
def checkpointDue (s : State) : State :=
  if alive s && cpAllowed s && s.nv.log.entries != [] && uncovered s (newestSeq s) then
    hashNext (s.onKeep fun k => { k with cpWanted := true })
  else s

/-- The signature of a checkpoint is finished (R364). -/
def checkpointEnds (s : State) : State :=
  match s.keep.hash.cur with
  | some (.checkpoint c) => if alive s then freeEngine .hash (storeCheckpoint c s) else s
  | _ => s

/-! ### Commands -/

def execTimeGet (p : Packet) (s : State) : Host.Outcome State Fault Refusal :=
  .next (simpleCommand op_timeGet p (timeGetBody p) s)
def execLogInfo (p : Packet) (s : State) : Host.Outcome State Fault Refusal :=
  .next (simpleCommand op_logInfo p (logInfoBody p) s)
def execLogRead (p : Packet) (ecc : List EccHit) (s : State) : Host.Outcome State Fault Refusal :=
  .next (simpleCommand op_logRead p (logReadBody p ecc) s)
def execLogCheckpoint (p : Packet) (s : State) : Host.Outcome State Fault Refusal :=
  .next (simpleCommand op_logCheckpoint p (logCheckpointBody p) s)
def execLogRelease (p : Packet) (s : State) : Host.Outcome State Fault Refusal :=
  .next (simpleCommand op_logRelease p (logReleaseBody p) s)
def execLeapSecond (s : State) : Host.Outcome State Fault Refusal := .next (leapTakes s)
def execCheckpointTimer (s : State) : Host.Outcome State Fault Refusal := .next (checkpointDue s)
def execCheckpointSigned (s : State) : Host.Outcome State Fault Refusal := .next (checkpointEnds s)
def execX32Loss (s : State) : Host.Outcome State Fault Refusal := .next (crystalStops s)
def execX32Return (s : State) : Host.Outcome State Fault Refusal := .next (crystalReturns s)

end Sys2Proof.Machine
end

