-- ==== Sys2Proof/Machine/Juggler.lean ====
section
/-! DEFINITION. The Juggler: routine memories (R270), the packets that load and start routines (R38, R271 to R273), the
decoding of instruction words (R275, R276), faults and traps (R278, R279), and the gather (R277). -/

namespace Sys2Proof.Machine

/-! ### Memories -/

/-- Byte address of a word of a booth's window, and of an instruction of its routine area. -/
def winAddr (b : Booth) (w : Nat) : Nat := b.val * 4096 + 2 * w
def codeAddr (b : Booth) (pc : Nat) : Nat := b.val * 2048 + 4 * pc

/-- A word of a booth's window. -/
def winWord (s : State) (b : Booth) (w : Nat) : Half := BitVec.ofNat 16 (ofLe (memRead s.jug.win (winAddr b w) 2))

/-- Partial 64-bit words at the ends of a range that is written. -/
def rangeEnds (a n : Nat) : List Nat :=
  (if a % 8 ≠ 0 then [a] else []) ++ (if (a + n) % 8 ≠ 0 then [a + n - 1] else [])

/-- A command meets an uncorrectable word of booth memory (R189, R383): `off` is the command's own offset of its range,
`base` the address of the range. -/
def rangeEcc (p : Packet) (sp : EccSpace) (off base a : Nat) (s : State) : State :=
  answer p .walkEcc (leBytes 4 (off + wordOf a - base)) (boothEcc p.src.booth sp a s)

/-! ### Packets -/

/-- The Juggler's needs of the routine commands (R142 step 5). -/
def needsJuggler (_ : State) : Needs := { juggler := true, gates := 0x001, power := false }
def needsRun (_ : State) : Needs := { juggler := true, gates := 0x001, power := true }

/-- RTN_LOAD (R272 items 1 and 4). -/
def rtnLoadBody (p : Packet) (s : State) : State :=
  let b := p.src.booth
  let off := leField p.payload 0 2
  let code := p.payload.drop 2
  let base := b.val * 2048 + off
  if off % 4 ≠ 0 ∨ 2048 < off + code.length ∨ routineBusy s b = true then answer p .badParam [] s
  else
    match (rangeEnds base code.length).find? (isBad s .routine) with
    | some a => rangeEcc p .routine off base a s
    | none =>
      done p (repair .routine base code.length
        ((s.onJug fun j => { j with code := memWrite j.code base code }).onBooth b fun x =>
          { x with codeLen := max x.codeLen (off + code.length), rtnState := .loaded }))

/-- RTN_READ (R272 items 2 and 4). -/
def rtnReadBody (p : Packet) (s : State) : State :=
  let b := p.src.booth
  let off := leField p.payload 0 2
  let n := leField p.payload 2 2
  if n = 0 ∨ 1024 < n ∨ 4096 < off + n ∨ routineBusy s b = true then answer p .badParam [] s
  else
    match firstBad s .window (b.val * 4096 + off) n with
    | some a => rangeEcc p .window off (b.val * 4096 + off) a s
    | none => answer p .ok (memRead s.jug.win (b.val * 4096 + off) n) s

/-- RTN_WRITE (R272 items 2 and 4). -/
def rtnWriteBody (p : Packet) (s : State) : State :=
  let b := p.src.booth
  let off := leField p.payload 0 2
  let d := p.payload.drop 2
  let base := b.val * 4096 + off
  if 4096 < off + d.length ∨ routineBusy s b = true then answer p .badParam [] s
  else
    match (rangeEnds base d.length).find? (isBad s .window) with
    | some a => rangeEcc p .window off base a s
    | none =>
      done p (repair .window base d.length (s.onJug fun j => { j with win := memWrite j.win base d }))

/-- The registers at the start of a run (R273): arguments in the lanes. -/
def freshRun (q : RtnReq) : Run :=
  { booth := q.booth, tag := q.tag, r := Vector.replicate 8 0, a := Vector.replicate 4 0
    v := Vector.ofFn fun i : Fin 16 => BitVec.ofNat 16 (leField q.args (2 * i.val) 2)
    acc0 := 0, acc1 := 0, z := false, n := false, vf := false, s := false, pc := q.entry / 4, vector := none
    handler := false, flt := { cause := 0, nested := false, lane := 0, pc := 0, addr := 0 }, resuming := false, gatherFrom := none }

/-- The firmware needs the Juggler (R271). -/
def demodNeeds (s : State) : Bool := s.rx.mode == .datacast || s.rx.mode == .fm

/-- The first waiting routine begins, unless one runs; it is paused while demodulation needs the Juggler (R271). -/
def runBegin (s : State) : State :=
  match s.jug.run, s.jug.queue with
  | none, q :: qs =>
    let x := freshRun q
    radioSettle ((s.onJug fun j => { j with run := some x, queue := qs, paused := demodNeeds s }).onBooth q.booth fun b =>
      { b with rtnState := .running })
  | _, _ => s

/-- RTN_START (R271 to R273). -/
def rtnStartBody (p : Packet) (s : State) : State :=
  let b := p.src.booth
  let entry := leField p.payload 0 2
  if entry % 4 ≠ 0 ∨ (s.booth b).codeLen ≤ entry ∨ leField p.payload 2 2 ≠ 0 then answer p .badParam [] s
  else
    let q : RtnReq := { booth := b, tag := p.tag, entry := entry, args := p.payload.drop 4 }
    let idle := s.jug.run.isNone && s.jug.queue == []
    let s1 := s.onJug fun j => { j with queue := j.queue ++ [q] }
    if idle then runBegin s1 else s1

/-- `JUG_RTN_CFG.ALLOW` lets a booth start routines (Table 8-8). -/
def routineAllowed (s : State) (b : Booth) : Bool := s.jug.rtnCfg.getLsbD (8 + b.val)

/-- RTN_START as a packet: a booth that `ALLOW` excludes may not use the opcode (R142 step 2). -/
def rtnStart (p : Packet) (s : State) : State :=
  takePacket (fun s => routineBusy s p.src.booth) op_rtnStart.op p (fun s =>
    if !s.boot.loader && !routineAllowed s p.src.booth then answer p .priv [] s
    else
      match precheck op_rtnStart (needsRun s) p s with
      | some st => answer p st [] s
      | none => rtnStartBody p s) s

/-! ### Instruction words -/

/-- Bits of a word that an operation uses beside `OP`, one mask per field of R275. -/
def mD : Nat := 0x03E00000
def mA : Nat := 0x001F0000
def mB : Nat := 0x0000F800
def mX : Nat := 0x00000400

/-- Unused bits are 0. -/
def onlyBits (w : Word) (m : Nat) : Bool := Nat.land (w.toNat % 2 ^ 26) (2 ^ 26 - 1 - m) == 0

/-- Two-source and one-source ALU forms. -/
def formDAB (w : Word) (k : JReg → JReg → JReg → Instr) : Option Instr :=
  match wD w, wA w, wB w with
  | some d, some a, some b => if onlyBits w (mD + mA + mB) then some (k d a b) else none
  | _, _, _ => none

def formDA (w : Word) (m : Nat) (k : JReg → JReg → Instr) : Option Instr :=
  match wD w, wA w with
  | some d, some a => if onlyBits w (mD + mA + m) then some (k d a) else none
  | _, _ => none

/-- A register and a window address register. -/
def formDAddr (w : Word) (m : Nat) (k : JReg → Fin 4 → Instr) : Option Instr :=
  match wD w, aCode (wfield w 16 5) with
  | some d, some a => if onlyBits w (mD + mA + m) then some (k d a) else none
  | _, _ => none

/-- Accumulator and two sources. -/
def formXAB (w : Word) (k : Bool → JReg → JReg → Instr) : Option Instr :=
  match wA w, wB w with
  | some a, some b => if onlyBits w (mA + mB + mX) then some (k (w.getLsbD 10) a b) else none
  | _, _ => none

/-- A destination that must be an r-register. -/
def formDr (w : Word) (m : Nat) (k : Fin 8 → Instr) : Option Instr :=
  match rCode (wfield w 21 5) with
  | some d => if onlyBits w (mD + m) then some (k d) else none
  | none => none

/-- Two window address registers. -/
def formAddr2 (w : Word) (m : Nat) (k : Fin 4 → Fin 4 → Option Instr) : Option Instr :=
  match aCode (wfield w 16 5), aCode (wfield w 11 5) with
  | some a, some b => if onlyBits w (mA + mB + m) then k a b else none
  | _, _ => none

/-- No field but those of the mask. -/
def formNone (w : Word) (m : Nat) (i : Instr) : Option Instr := if onlyBits w m then some i else none

/-- The instruction a word encodes (R275); none for an invalid encoding (R276). -/
def jugDecode (w : Word) : Option Instr :=
  match wfield w 26 6 with
  | 0x00 => formNone w 0 .jugNop
  | 0x01 => match wD w with
    | some d => if onlyBits w (mD + 0xFFFF) then some (.jugMovi d (w.truncate 16)) else none
    | none => none
  | 0x02 => formDA w 0 .jugMov
  | 0x03 => formDAB w .jugAdd
  | 0x04 => formDAB w .jugSub
  | 0x05 => formDA w 0xFFFF fun d a => .jugAddi d a (w.truncate 16)
  | 0x06 => formDAB w .jugAnd
  | 0x07 => formDAB w .jugOr
  | 0x08 => formDAB w .jugXor
  | 0x09 => formDA w 0x1F fun d a => .jugShr d a (w.truncate 5)
  | 0x0A => formDA w 0x1F fun d a => .jugShl d a (w.truncate 5)
  | 0x0B => formDA w 0 .jugAbs
  | 0x10 => formDAddr w 0x7FF fun d a => .jugLd d a (w.truncate 11) []
  | 0x11 => formDAddr w 0x7FF fun d a => .jugSt d a (w.truncate 11)
  | 0x12 => formDAddr w 0xFF fun d a => .jugLdi d a (w.truncate 8)
  | 0x13 => formDAddr w 0xFF fun d a => .jugSti d a (w.truncate 8)
  | 0x14 => formAddr2 w 0xF fun a b => some (.jugGath16 a b (w.truncate 4))
  | 0x15 => formAddr2 w mD fun a b => (rCode (wfield w 21 5)).map (.jugGath16r a b)
  | 0x18 => formNone w mX (.jugClr (w.getLsbD 10))
  | 0x19 => formXAB w .jugMul
  | 0x1A => formXAB w .jugMac
  | 0x1B => formXAB w .jugMsu
  | 0x1C => formNone w (mX + 0x3F) (.jugAsha (w.getLsbD 10) (w.truncate 6))
  | 0x1D => match rvCode (wfield w 21 5) with
    | some d => if onlyBits w (mD + mX + 0x1F) then some (.jugRnd d (w.getLsbD 10) (w.truncate 5)) else none
    | none => none
  | 0x1E => formDr w mX fun d => .jugExp d (w.getLsbD 10)
  | 0x1F => formDr w mX fun d => .jugNorm d (w.getLsbD 10)
  | 0x20 => match condOf (wfield w 22 4) with
    | some c => formNone w (0x03C00000 + 0x1FF) (.jugBr c (w.truncate 9))
    | none => none
  | 0x21 => formDr w 0x1FF fun d => .jugDbnz d (w.truncate 9)
  | 0x28 => formNone w (0x1FF + 0x200) (.jugSetfv (w.truncate 9) (w.getLsbD 9))
  | 0x29 => formDr w 3 fun d => .jugGetf d (w.truncate 2)
  | 0x2A => formNone w 0 .jugResume
  | 0x3F => match aCode (wfield w 16 5) with
    | some a =>
      if wfield w 0 7 % 2 = 0 ∧ wfield w 0 7 ≤ 64 then formNone w (mA + 0x7F) (.jugEnd a (w.truncate 7)) else none
    | none => none
  | _ => none

/-! ### The words of instructions -/

/-- The 5-bit code of a register (Table 13-3). -/
def jregCode : JReg → Nat
  | .r i => i.val
  | .a i => 8 + i.val
  | .v i => 16 + i.val

/-- The code of a branch condition (Table 13-4). -/
def condCode : JCond → Nat
  | .always => 0 | .z => 1 | .nz => 2 | .n => 3 | .nn => 4 | .v => 5 | .nv => 6 | .s => 7

/-- A word from `OP`, the codes of D, A and B, and the bits below them (R275). -/
def jugWord (op d a b low : Nat) : Word := BitVec.ofNat 32 (op * 2 ^ 26 + d * 2 ^ 21 + a * 2 ^ 16 + b * 2 ^ 11 + low)

/-- The word of an instruction (Table 13-4); none for the commands that are no instructions. -/
def jugEncode : Instr → Option Word
  | .jugNop => some (jugWord 0x00 0 0 0 0)
  | .jugMovi d imm => some (jugWord 0x01 (jregCode d) 0 0 imm.toNat)
  | .jugMov d a => some (jugWord 0x02 (jregCode d) (jregCode a) 0 0)
  | .jugAdd d a b => some (jugWord 0x03 (jregCode d) (jregCode a) (jregCode b) 0)
  | .jugSub d a b => some (jugWord 0x04 (jregCode d) (jregCode a) (jregCode b) 0)
  | .jugAddi d a imm => some (jugWord 0x05 (jregCode d) (jregCode a) 0 imm.toNat)
  | .jugAnd d a b => some (jugWord 0x06 (jregCode d) (jregCode a) (jregCode b) 0)
  | .jugOr d a b => some (jugWord 0x07 (jregCode d) (jregCode a) (jregCode b) 0)
  | .jugXor d a b => some (jugWord 0x08 (jregCode d) (jregCode a) (jregCode b) 0)
  | .jugShr d a sh => some (jugWord 0x09 (jregCode d) (jregCode a) 0 sh.toNat)
  | .jugShl d a sh => some (jugWord 0x0A (jregCode d) (jregCode a) 0 sh.toNat)
  | .jugAbs d a => some (jugWord 0x0B (jregCode d) (jregCode a) 0 0)
  | .jugLd d a imm _ => some (jugWord 0x10 (jregCode d) (8 + a.val) 0 imm.toNat)
  | .jugSt d a imm => some (jugWord 0x11 (jregCode d) (8 + a.val) 0 imm.toNat)
  | .jugLdi d a step => some (jugWord 0x12 (jregCode d) (8 + a.val) 0 step.toNat)
  | .jugSti d a step => some (jugWord 0x13 (jregCode d) (8 + a.val) 0 step.toNat)
  | .jugGath16 a b start => some (jugWord 0x14 0 (8 + a.val) (8 + b.val) start.toNat)
  | .jugGath16r a b d => some (jugWord 0x15 d.val (8 + a.val) (8 + b.val) 0)
  | .jugClr x => some (jugWord 0x18 0 0 0 (1024 * bit x))
  | .jugMul x a b => some (jugWord 0x19 0 (jregCode a) (jregCode b) (1024 * bit x))
  | .jugMac x a b => some (jugWord 0x1A 0 (jregCode a) (jregCode b) (1024 * bit x))
  | .jugMsu x a b => some (jugWord 0x1B 0 (jregCode a) (jregCode b) (1024 * bit x))
  | .jugAsha x ash => some (jugWord 0x1C 0 0 0 (1024 * bit x + ash.toNat))
  | .jugRnd d x sh => some (jugWord 0x1D (jregCode d) 0 0 (1024 * bit x + sh.toNat))
  | .jugExp d x => some (jugWord 0x1E d.val 0 0 (1024 * bit x))
  | .jugNorm d x => some (jugWord 0x1F d.val 0 0 (1024 * bit x))
  | .jugBr c tgt => some (jugWord 0x20 0 0 0 (condCode c * 2 ^ 22 + tgt.toNat))
  | .jugDbnz d tgt => some (jugWord 0x21 d.val 0 0 tgt.toNat)
  | .jugSetfv tgt clr => some (jugWord 0x28 0 0 0 (512 * bit clr + tgt.toNat))
  | .jugGetf d f => some (jugWord 0x29 d.val 0 0 f.toNat)
  | .jugResume => some (jugWord 0x2A 0 0 0 0)
  | .jugEnd a cnt => some (jugWord 0x3F 0 (8 + a.val) 0 cnt.toNat)
  | _ => none

/-! ### Faults -/

/-- What an instruction does: a next run, with the window word it stores and where it goes on; a fault; the end. -/
inductive JugRes where
  | go (x : Run) (store : Option (Nat × Half)) (jump : Option Nat)
  | fault (x : Run) (cause : BitVec 7) (lane : Byte) (addr : Nat)
  | fin (result : Bytes)
deriving DecidableEq, Repr

/-- Fault causes (Table 13-5). -/
def cWindow : BitVec 7 := 0x01
def cEncoding : BitVec 7 := 0x02
def cCode : BitVec 7 := 0x03
def cLimit : BitVec 7 := 0x04
def cEcc : BitVec 7 := 0x08

/-- `CAUSE` byte of a record. -/
def causeByte (f : FaultRec) : Byte := f.cause.zeroExtend 8 ||| (if f.nested then 0x80 else 0)

/-- The 8 bytes of Table 13-5. -/
def faultBytes (f : FaultRec) : Bytes := [causeByte f, f.lane] ++ leBytes 2 f.pc ++ leBytes 4 f.addr

/-- A trap (R279). -/
def trap (b : Booth) (f : FaultRec) (s : State) : State :=
  raiseTo .rtnTrap b (endRun .routineTrap (faultBytes f) .trapped s)

def setRun (x : Run) (s : State) : State := s.onJug fun j => { j with run := some x }

/-- A fault at the instruction at `x.pc` (R278): the handler, or a trap. -/
def jugFault (x : Run) (cause : BitVec 7) (lane : Byte) (addr : Nat) (s : State) : State :=
  let f : FaultRec := { cause := cause, nested := x.handler, lane := lane, pc := x.pc, addr := addr }
  match x.vector, x.handler with
  | some v, false => setRun { x with flt := f, handler := true, pc := v, resuming := false, gatherFrom := none } s
  | _, _ => trap x.booth f s

/-- An instruction cannot be fetched at the program counter: beyond `CODE_LEN`, or an uncorrectable word (R278). -/
def fetchFault (s : State) (x : Run) : Option (BitVec 7) :=
  if (s.booth x.booth).codeLen ≤ 4 * x.pc then some cCode
  else if isBad s .routine (codeAddr x.booth x.pc) then some cEcc else none

/-- The instruction at the program counter. -/
def fetched (s : State) (x : Run) : Option Instr :=
  jugDecode (BitVec.ofNat 32 (ofLe (memRead s.jug.code (codeAddr x.booth x.pc) 4)))

/-- A fault caused by an uncorrectable word raises EV_BOOTH_ECC as well (R383). -/
def eccEvent (sp : EccSpace) (b : Booth) (cause : BitVec 7) (a : Nat) (s : State) : State :=
  if cause = cEcc then boothEcc b sp a s else s

/-- What an executed instruction leaves; one that RESUME has executed again leaves the handler state (R278). -/
def jugResult (x : Run) (resume : Bool) (res : JugRes) (s : State) : State :=
  match res with
  | .go y store jump =>
    let s1 := match store with
      | some (w, h) =>
        repair .window (winAddr x.booth w) 2
          (s.onJug fun j => { j with win := memWrite j.win (winAddr x.booth w) (leBytes 2 h.toNat) })
      | none => s
    setRun (if resume then { y with pc := jump.getD (x.pc + 1) }
      else { y with pc := jump.getD (x.pc + 1), handler := y.handler && !x.resuming, resuming := false, gatherFrom := none }) s1
  | .fault y cause lane addr =>
    jugFault { y with pc := x.pc } cause lane addr (eccEvent .window x.booth cause (winAddr x.booth addr) s)
  | .fin b => endRun .ok b .loaded s

/-- The running routine executes its next instruction, which is `i` (R275), once the Juggler is released (R28); while the word at its program counter
encodes another one, `i` does not happen (log 2). A fetch fault or an invalid encoding happens in its place. -/
def jugStep (i : Instr) (ecc : List EccHit) (op : State → Run → JugRes) (s0 : State) : State :=
  match s0.jug.run with
  | none => s0
  | some x =>
    if s0.jug.paused || !alive s0 || !gateOpen s0 0 then s0
    else
      let s := applyHits ecc s0
      match fetchFault s x with
      | some c => jugFault x c 0xFF x.pc (eccEvent .routine x.booth c (codeAddr x.booth x.pc) s)
      | none =>
        match fetched s x with
        | none => jugFault x cEncoding 0xFF 0 s
        | some j => if j = i then jugResult x (decide (i = .jugResume)) (op s x) s else s0

/-! ### The window -/

/-- A window word may not be accessed: beyond word 2047, or uncorrectable (R276, R278). -/
def winFault (s : State) (b : Booth) (w : Nat) : Option (BitVec 7) :=
  if 2048 ≤ w then some cWindow else if isBad s .window (winAddr b w) then some cEcc else none

/-- Gather lanes `i` to 15 in order (R277); `n` is the number of lanes left. -/
def gather (s : State) (base index : Nat) : Nat → Run → JugRes
  | 0, x => .go x none none
  | n + 1, x =>
    let i := 15 - n
    let lane : Byte := BitVec.ofNat 8 i
    match winFault s x.booth (index + i) with
    | some c => .fault x c lane (index + i)
    | none =>
      let el := base + (winWord s x.booth (index + i)).toNat
      match winFault s x.booth el with
      | some c => .fault x c lane el
      | none => gather s base index n (regSet (.v (Fin.ofNat 16 i)) (winWord s x.booth el) x)

/-- A gather from a start lane, or from the lane a RESUME names (R278). -/
def gatherOp (a b : Fin 4) (start : Nat) (s : State) (x : Run) : JugRes :=
  let from_ := x.gatherFrom.getD start
  gather s (x.a.get a).toNat (x.a.get b).toNat (16 - from_) x

/-- A taken branch: a target at or beyond `CODE_LEN` faults with nothing changed (R278). -/
def branch (s : State) (x y : Run) (tgt : BitVec 9) (taken : Bool) : JugRes :=
  if taken then
    (if (s.booth x.booth).codeLen ≤ 4 * tgt.toNat then .fault x cCode 0xFF tgt.toNat else .go y none (some tgt.toNat))
  else .go y none none

/-- First word of an END's result that cannot be read: `n` words from `w`. -/
def endFault (s : State) (b : Booth) : Nat → Nat → Option (BitVec 7 × Nat)
  | _, 0 => none
  | w, n + 1 => match winFault s b w with | some c => some (c, w) | none => endFault s b (w + 1) n

/-- The product of two operands; with an a-register it is a value the spec does not state (log 24). -/
def product (x : Run) (a b : JReg) : Int :=
  if JReg.isA a || JReg.isA b then (Config.jugProduct (regGet x a) (regGet x b)).toInt else regInt x a * regInt x b

end Sys2Proof.Machine
end

