-- ==== Sys2Proof/Machine/JugRows.lean ====
section
/-! DEFINITION. The routine packets, the start, pause and limit of runs, and the booth-routine instructions of Table 13-4:
one operation on the run and one meaning each. -/

namespace Sys2Proof.Machine

/-! ### Packets and runs -/

def execRtnLoad (p : Packet) (s : State) : Host.Outcome State Fault Refusal :=
  .next (command op_rtnLoad needsJuggler p (rtnLoadBody p) s)
def execRtnStart (p : Packet) (s : State) : Host.Outcome State Fault Refusal := .next (rtnStart p s)
def execRtnRead (p : Packet) (s : State) : Host.Outcome State Fault Refusal :=
  .next (command op_rtnRead needsJuggler p (rtnReadBody p) s)
def execRtnWrite (p : Packet) (s : State) : Host.Outcome State Fault Refusal :=
  .next (command op_rtnWrite needsJuggler p (rtnWriteBody p) s)

/-- RTN_RUN_BEGIN: a waiting routine begins (R271); while `BATT_END` holds none is started (R280, log 26). -/
def execRtnRunBegin (s : State) : Host.Outcome State Fault Refusal :=
  .next (if alive s && !s.pwr.battEnd && gateOpen s 0 then runBegin s else s)

/-- ROUTINE_RESUME: the demodulation work is done (R271); that of a datacast window ends with the window (log 26). -/
def execRoutineResume (s : State) : Host.Outcome State Fault Refusal :=
  .next (if s.jug.run.isSome && s.rx.mode != .datacast then s.onJug fun j => { j with paused := false } else s)

/-- RUN_LIMIT: a run reaches `MAX_MS` of execution and traps, even with a vector set (R278). -/
def runLimit (s : State) : State :=
  match s.jug.run with
  | some x =>
    if s.jug.paused || !alive s then s
    else
      let f : FaultRec := { cause := cLimit, nested := false, lane := 0xFF, pc := x.pc, addr := 0 }
      trap x.booth f s
  | none => s
def execRunLimit (s : State) : Host.Outcome State Fault Refusal := .next (runLimit s)

/-! ### Instructions -/

/-- NOP. -/
def opJugNop (_s : State) (x : Run) : JugRes :=
  .go x none none
def execJugNop (s : State) : Host.Outcome State Fault Refusal :=
  .next (jugStep (.jugNop) [] (opJugNop) s)

/-- MOVI: a move sets no flag (log 25). -/
def opJugMovi (d : JReg) (imm : Half) (_s : State) (x : Run) : JugRes :=
  .go (regSet d imm x) none none
def execJugMovi (d : JReg) (imm : Half) (s : State) : Host.Outcome State Fault Refusal :=
  .next (jugStep (.jugMovi d imm) [] (opJugMovi d imm) s)

/-- MOV. -/
def opJugMov (d : JReg) (a : JReg) (_s : State) (x : Run) : JugRes :=
  .go (regSet d (regGet x a) x) none none
def execJugMov (d : JReg) (a : JReg) (s : State) : Host.Outcome State Fault Refusal :=
  .next (jugStep (.jugMov d a) [] (opJugMov d a) s)

/-- ADD (R274). -/
def opJugAdd (d : JReg) (a : JReg) (b : JReg) (_s : State) (x : Run) : JugRes :=
  .go (aluWrite d (regInt x a + regInt x b) x) none none
def execJugAdd (d : JReg) (a : JReg) (b : JReg) (s : State) : Host.Outcome State Fault Refusal :=
  .next (jugStep (.jugAdd d a b) [] (opJugAdd d a b) s)

/-- SUB (R274). -/
def opJugSub (d : JReg) (a : JReg) (b : JReg) (_s : State) (x : Run) : JugRes :=
  .go (aluWrite d (regInt x a - regInt x b) x) none none
def execJugSub (d : JReg) (a : JReg) (b : JReg) (s : State) : Host.Outcome State Fault Refusal :=
  .next (jugStep (.jugSub d a b) [] (opJugSub d a b) s)

/-- ADDI: the immediate is signed. -/
def opJugAddi (d : JReg) (a : JReg) (imm : Half) (_s : State) (x : Run) : JugRes :=
  .go (aluWrite d (regInt x a + imm.toInt) x) none none
def execJugAddi (d : JReg) (a : JReg) (imm : Half) (s : State) : Host.Outcome State Fault Refusal :=
  .next (jugStep (.jugAddi d a imm) [] (opJugAddi d a imm) s)

/-- AND. -/
def opJugAnd (d : JReg) (a : JReg) (b : JReg) (_s : State) (x : Run) : JugRes :=
  .go (aluBits d (regGet x a &&& regGet x b) x) none none
def execJugAnd (d : JReg) (a : JReg) (b : JReg) (s : State) : Host.Outcome State Fault Refusal :=
  .next (jugStep (.jugAnd d a b) [] (opJugAnd d a b) s)

/-- OR. -/
def opJugOr (d : JReg) (a : JReg) (b : JReg) (_s : State) (x : Run) : JugRes :=
  .go (aluBits d (regGet x a ||| regGet x b) x) none none
def execJugOr (d : JReg) (a : JReg) (b : JReg) (s : State) : Host.Outcome State Fault Refusal :=
  .next (jugStep (.jugOr d a b) [] (opJugOr d a b) s)

/-- XOR. -/
def opJugXor (d : JReg) (a : JReg) (b : JReg) (_s : State) (x : Run) : JugRes :=
  .go (aluBits d (regGet x a ^^^ regGet x b) x) none none
def execJugXor (d : JReg) (a : JReg) (b : JReg) (s : State) : Host.Outcome State Fault Refusal :=
  .next (jugStep (.jugXor d a b) [] (opJugXor d a b) s)

/-- SHR: arithmetic for r and v, logical for a; both are the quotient by 2^SH toward minus infinity. -/
def opJugShr (d : JReg) (a : JReg) (sh : BitVec 5) (_s : State) (x : Run) : JugRes :=
  .go (aluWrite d (regInt x a / 2 ^ sh.toNat) x) none none
def execJugShr (d : JReg) (a : JReg) (sh : BitVec 5) (s : State) : Host.Outcome State Fault Refusal :=
  .next (jugStep (.jugShr d a sh) [] (opJugShr d a sh) s)

/-- SHL (R274). -/
def opJugShl (d : JReg) (a : JReg) (sh : BitVec 5) (_s : State) (x : Run) : JugRes :=
  .go (aluWrite d (regInt x a * 2 ^ sh.toNat) x) none none
def execJugShl (d : JReg) (a : JReg) (sh : BitVec 5) (s : State) : Host.Outcome State Fault Refusal :=
  .next (jugStep (.jugShl d a sh) [] (opJugShl d a sh) s)

/-- ABS (R274). -/
def opJugAbs (d : JReg) (a : JReg) (_s : State) (x : Run) : JugRes :=
  .go (aluWrite d ((regInt x a).natAbs : Int) x) none none
def execJugAbs (d : JReg) (a : JReg) (s : State) : Host.Outcome State Fault Refusal :=
  .next (jugStep (.jugAbs d a) [] (opJugAbs d a) s)

/-- LD (R275, R276). -/
def opJugLd (d : JReg) (a : Fin 4) (imm : BitVec 11) (s : State) (x : Run) : JugRes :=
  let w := (x.a.get a).toNat + imm.toNat
  match winFault s x.booth w with
  | some c => .fault x c 0xFF w
  | none => .go (regSet d (winWord s x.booth w) x) none none
def execJugLd (d : JReg) (a : Fin 4) (imm : BitVec 11) (ecc : List EccHit) (s : State) : Host.Outcome State Fault Refusal :=
  .next (jugStep (.jugLd d a imm []) ecc (opJugLd d a imm) s)

/-- ST (R275, R276). -/
def opJugSt (d : JReg) (a : Fin 4) (imm : BitVec 11) (s : State) (x : Run) : JugRes :=
  let w := (x.a.get a).toNat + imm.toNat
  match winFault s x.booth w with
  | some c => .fault x c 0xFF w
  | none => .go x (some (w, regGet x d)) none
def execJugSt (d : JReg) (a : Fin 4) (imm : BitVec 11) (s : State) : Host.Outcome State Fault Refusal :=
  .next (jugStep (.jugSt d a imm) [] (opJugSt d a imm) s)

/-- LDI: the load, then the step of A. -/
def opJugLdi (d : JReg) (a : Fin 4) (step : BitVec 8) (s : State) (x : Run) : JugRes :=
  let w := (x.a.get a).toNat
  match winFault s x.booth w with
  | some c => .fault x c 0xFF w
  | none =>
    let y := regSet d (winWord s x.booth w) x
    .go (regSet (.a a) (y.a.get a + step.signExtend 16) y) none none
def execJugLdi (d : JReg) (a : Fin 4) (step : BitVec 8) (s : State) : Host.Outcome State Fault Refusal :=
  .next (jugStep (.jugLdi d a step) [] (opJugLdi d a step) s)

/-- STI: the store, then the step of A. -/
def opJugSti (d : JReg) (a : Fin 4) (step : BitVec 8) (s : State) (x : Run) : JugRes :=
  let w := (x.a.get a).toNat
  match winFault s x.booth w with
  | some c => .fault x c 0xFF w
  | none => .go (regSet (.a a) (x.a.get a + step.signExtend 16) x) (some (w, regGet x d)) none
def execJugSti (d : JReg) (a : Fin 4) (step : BitVec 8) (s : State) : Host.Outcome State Fault Refusal :=
  .next (jugStep (.jugSti d a step) [] (opJugSti d a step) s)

/-- GATH16 (R277). -/
def opJugGath16 (a : Fin 4) (b : Fin 4) (start : BitVec 4) (s : State) (x : Run) : JugRes :=
  gatherOp a b start.toNat s x
def execJugGath16 (a : Fin 4) (b : Fin 4) (start : BitVec 4) (s : State) : Host.Outcome State Fault Refusal :=
  .next (jugStep (.jugGath16 a b start) [] (opJugGath16 a b start) s)

/-- GATH16R: the start is in bits [3:0] of D. -/
def opJugGath16r (a : Fin 4) (b : Fin 4) (d : Fin 8) (s : State) (x : Run) : JugRes :=
  gatherOp a b ((x.r.get d).toNat % 16) s x
def execJugGath16r (a : Fin 4) (b : Fin 4) (d : Fin 8) (s : State) : Host.Outcome State Fault Refusal :=
  .next (jugStep (.jugGath16r a b d) [] (opJugGath16r a b d) s)

/-- CLR. -/
def opJugClr (acc : Bool) (_s : State) (x : Run) : JugRes := .go (accWrite acc 0 x) none none
def execJugClr (x : Bool) (s : State) : Host.Outcome State Fault Refusal :=
  .next (jugStep (.jugClr x) [] (opJugClr x) s)

/-- MUL (R274 rule 2). -/
def opJugMul (acc : Bool) (a b : JReg) (_s : State) (x : Run) : JugRes := .go (accWrite acc (product x a b) x) none none
def execJugMul (x : Bool) (a b : JReg) (s : State) : Host.Outcome State Fault Refusal :=
  .next (jugStep (.jugMul x a b) [] (opJugMul x a b) s)

/-- MAC. -/
def opJugMac (acc : Bool) (a b : JReg) (_s : State) (x : Run) : JugRes := .go (accWrite acc (accGet x acc + product x a b) x) none none
def execJugMac (x : Bool) (a b : JReg) (s : State) : Host.Outcome State Fault Refusal :=
  .next (jugStep (.jugMac x a b) [] (opJugMac x a b) s)

/-- MSU. -/
def opJugMsu (acc : Bool) (a b : JReg) (_s : State) (x : Run) : JugRes := .go (accWrite acc (accGet x acc - product x a b) x) none none
def execJugMsu (x : Bool) (a b : JReg) (s : State) : Host.Outcome State Fault Refusal :=
  .next (jugStep (.jugMsu x a b) [] (opJugMsu x a b) s)

/-- ASHA: left by ASH with saturation, or right by −ASH. -/
def opJugAsha (acc : Bool) (ash : BitVec 6) (_s : State) (x : Run) : JugRes :=
  let k := ash.toInt
  .go (accWrite acc (if 0 ≤ k then accGet x acc * 2 ^ k.toNat else accGet x acc / 2 ^ (-k).toNat) x) none none
def execJugAsha (x : Bool) (ash : BitVec 6) (s : State) : Host.Outcome State Fault Refusal :=
  .next (jugStep (.jugAsha x ash) [] (opJugAsha x ash) s)

/-- RND (R274 rule 3). -/
def opJugRnd (d : JReg) (acc : Bool) (sh : BitVec 5) (_s : State) (x : Run) : JugRes :=
  .go (aluWrite d (roundEven (accGet x acc) sh.toNat) x) none none
def execJugRnd (d : JReg) (x : Bool) (sh : BitVec 5) (s : State) : Host.Outcome State Fault Refusal :=
  .next (jugStep (.jugRnd d x sh) [] (opJugRnd d x sh) s)

/-- EXP (R274 rule 4); it sets no flag (log 25). -/
def opJugExp (d : Fin 8) (acc : Bool) (_s : State) (x : Run) : JugRes :=
  .go (regSet (.r d) (BitVec.ofNat 16 (expOf (accGet x acc))) x) none none
def execJugExp (d : Fin 8) (x : Bool) (s : State) : Host.Outcome State Fault Refusal :=
  .next (jugStep (.jugExp d x) [] (opJugExp d x) s)

/-- NORM (R274 rule 4). -/
def opJugNorm (d : Fin 8) (acc : Bool) (_s : State) (x : Run) : JugRes :=
  let e := expOf (accGet x acc)
  .go (accWrite acc (accGet x acc * 2 ^ e) (regSet (.r d) (BitVec.ofNat 16 e) x)) none none
def execJugNorm (d : Fin 8) (x : Bool) (s : State) : Host.Outcome State Fault Refusal :=
  .next (jugStep (.jugNorm d x) [] (opJugNorm d x) s)

/-- BR. -/
def opJugBr (cond : JCond) (tgt : BitVec 9) (s : State) (x : Run) : JugRes :=
  branch s x x tgt (condHolds x cond)
def execJugBr (cond : JCond) (tgt : BitVec 9) (s : State) : Host.Outcome State Fault Refusal :=
  .next (jugStep (.jugBr cond tgt) [] (opJugBr cond tgt) s)

/-- DBNZ: the decrement wraps and sets no flag (log 25). -/
def opJugDbnz (d : Fin 8) (tgt : BitVec 9) (s : State) (x : Run) : JugRes :=
  let h := x.r.get d - 1
  branch s x (regSet (.r d) h x) tgt (h != 0)
def execJugDbnz (d : Fin 8) (tgt : BitVec 9) (s : State) : Host.Outcome State Fault Refusal :=
  .next (jugStep (.jugDbnz d tgt) [] (opJugDbnz d tgt) s)

/-- SETFV: either way the handler state clears. -/
def opJugSetfv (tgt : BitVec 9) (clr : Bool) (_s : State) (x : Run) : JugRes :=
  let y : Run := { x with vector := if clr then none else some tgt.toNat, handler := false }
  .go y none none
def execJugSetfv (tgt : BitVec 9) (clr : Bool) (s : State) : Host.Outcome State Fault Refusal :=
  .next (jugStep (.jugSetfv tgt clr) [] (opJugSetfv tgt clr) s)

/-- GETF: a field of the fault record. -/
def opJugGetf (d : Fin 8) (f : BitVec 2) (_s : State) (x : Run) : JugRes :=
  let v := if f = 0 then (causeByte x.flt).toNat else if f = 1 then x.flt.lane.toNat else if f = 2 then x.flt.pc
    else x.flt.addr
  .go (regSet (.r d) (BitVec.ofNat 16 (min v 0xFFFF)) x) none none
def execJugGetf (d : Fin 8) (f : BitVec 2) (s : State) : Host.Outcome State Fault Refusal :=
  .next (jugStep (.jugGetf d f) [] (opJugGetf d f) s)

/-- RESUME (R278): the faulting instruction is executed next, still in the handler state, a gather from its recorded lane;
outside the handler it is an invalid encoding. -/
def opJugResume (_s : State) (x : Run) : JugRes :=
  let y : Run := { x with resuming := true, gatherFrom := if x.flt.lane = 0xFF then none else some x.flt.lane.toNat }
  if x.handler then .go y none (some x.flt.pc) else .fault x cEncoding 0xFF 0
def execJugResume (s : State) : Host.Outcome State Fault Refusal :=
  .next (jugStep (.jugResume) [] (opJugResume) s)

/-- END: the result is CNT bytes of the window. -/
def opJugEnd (a : Fin 4) (cnt : BitVec 7) (s : State) (x : Run) : JugRes :=
  let w := (x.a.get a).toNat
  match endFault s x.booth w (cnt.toNat / 2) with
  | some f => .fault x f.1 0xFF f.2
  | none => .fin (memRead s.jug.win (winAddr x.booth w) cnt.toNat)
def execJugEnd (a : Fin 4) (cnt : BitVec 7) (s : State) : Host.Outcome State Fault Refusal :=
  .next (jugStep (.jugEnd a cnt) [] (opJugEnd a cnt) s)

end Sys2Proof.Machine
end

