-- ==== Sys2Proof/Machine/Booths.lean ====
section
/-! DEFINITION. `CANCEL` (R151, Table 7-4), `BOOTH_DISABLE` and the end of a drain (R152, R153, R176). -/

namespace Sys2Proof.Machine

/-! ### Commands accepted and not started -/

/-- The credential is the one a command submitted. -/
def Cred.isOf (b : Booth) (t : Byte) (c : Cred) : Bool :=
  match c.via with | .host x y => x == b && y == t | .pbus _ => false

/-- The command that a queued car answers. -/
def QCar.isOf (b : Booth) (t : Byte) (q : QCar) : Bool := q.cmd == some (b, t)

/-- Cars that wait; the one the engine verifies has started (R316). -/
def carsWaiting (s : State) : List QCar :=
  if s.keep.hash.cur = some .car then s.car.queue.drop 1 else s.car.queue

/-- The command waits in one of the block's queues: accepted, not started (Table 7-4). -/
def isWaiting (s : State) (b : Booth) (t : Byte) : Bool :=
  s.keep.aes.queue.any (Job.isOf b t) || s.keep.hash.queue.any (Job.isOf b t)
    || s.jug.queue.any (fun q => q.booth == b && q.tag == t)
    || s.pb.queue.any (fun x => x.booth == b && x.tag == t)
    || s.rx.listens.any (fun q => q.booth == b && q.tag == t)
    || s.fm.waiting.any (fun q => q.who == (b, t))
    || s.vd.intake.any (Cred.isOf b t)
    || (carsWaiting s).any (QCar.isOf b t)

/-- The window that expects the intake credential of place `i` expects one fewer; an open window left with nothing is
gone. -/
def unexpect : Nat → List Win → List Win
  | _, [] => []
  | i, w :: ws =>
    if i < w.expect then
      let w1 : Win := { w with expect := w.expect - 1 }
      if w1.expect = 0 ∧ w1.members = [] ∧ w1.closed = false then ws else w1 :: ws
    else w :: unexpect (i - w.expect) ws

/-- Take a credential out of the intake queue. -/
def dropCred (b : Booth) (t : Byte) (s : State) : State :=
  match s.vd.intake.findIdx? (Cred.isOf b t) with
  | none => s
  | some i =>
    let s1 := s.onVd fun v => { v with intake := v.intake.eraseIdx i, windows := unexpect i v.windows }
    finishWindows s1.vd.windows.length s1

/-- Take a car that waits out of the verification queue. -/
def unqueueCar (b : Booth) (t : Byte) (s : State) : State :=
  let keep (q : QCar) : Bool := !QCar.isOf b t q
  s.onCar fun c => { c with queue :=
    if s.keep.hash.cur = some .car then c.queue.take 1 ++ (c.queue.drop 1).filter keep else c.queue.filter keep }

/-- Take a waiting command out of its queue, without effect. -/
def dropWaiting (b : Booth) (t : Byte) (s : State) : State :=
  let job (j : Job) : Bool := !Job.isOf b t j
  let s1 := s.onKeep fun k =>
    { k with aes := { k.aes with queue := k.aes.queue.filter job }, hash := { k.hash with queue := k.hash.queue.filter job } }
  let s2 := s1.onJug fun j => { j with queue := j.queue.filter fun q => !(q.booth == b && q.tag == t) }
  let s3 := s2.onPb fun p => { p with queue := p.queue.filter fun x => !(x.booth == b && x.tag == t) }
  let s4 := s3.onRx fun r => { r with listens := r.listens.filter fun q => !(q.booth == b && q.tag == t) }
  let s5 := s4.onFm fun f => { f with waiting := f.waiting.filter fun q => !(q.who == (b, t)) }
  unqueueCar b t (dropCred b t s5)

/-- Answer a waiting command `ST_CANCELLED`. -/
def cancelWaiting (b : Booth) (t : Byte) (s : State) : State := radioSettle (replyTo b t .cancelled [] (dropWaiting b t s))

/-! ### Running commands that CANCEL stops -/

/-- A running command of Table 7-4, row 3. -/
inductive Stoppable where
  | scan | tune | listen | routine | transfer
deriving DecidableEq, Repr

/-- Which of them the command is. -/
def stoppable (s : State) (b : Booth) (t : Byte) : Option Stoppable :=
  if s.fm.scan.any (fun c => c.booth == b && c.tag == t) then some .scan
  else if s.fm.tune.any (fun c => c.booth == b && c.tag == t) then some .tune
  else if s.rx.window.any (fun w => w.cmd == some (b, t)) then some .listen
  else if s.jug.run.any (fun r => r.booth == b && r.tag == t) then some .routine
  else if s.pb.xfer.any (fun x => x.booth == b && x.tag == t && x.lost == 0 && !x.onBus) then some .transfer
  else none

/-- Stop it (`back`: what the return to a held station meets): its reply is placed; a stopped scan discards its list and FM goes back, a stopped measurement keeps the hold,
a stopped window returns the radio, a stopped routine stays loaded (R151, R280). -/
def stopRunning (k : Stoppable) (b : Booth) (t : Byte) (back : CalRun) (s : State) : State :=
  match k with
  | .scan => nextFm (fmBack back (afterScan (replyTo b t .cancelled [] s)))
  | .tune => nextFm (replyTo b t .cancelled [] (s.onFm fun f => { f with tune := none }))
  | .listen => runListens (leaveWindow back (answerListen .cancelled s))
  | .routine => endRun .cancelled [] .loaded s
  | .transfer => nextXfer (replyTo b t .cancelled [] s)

/-- CANCEL (R151, Table 7-4). -/
def cancelBody (p : Packet) (back : CalRun) (s : State) : State :=
  let b := p.src.booth
  let t := byteAt p.payload 0
  if t = p.tag then answer p .badParam [] s
  else if (s.booth b).replies.any (fun r => !r.refusal && r.tag == t) then answer p .ok [0] s
  else if s.cmd.svc.any (fun x => x.booth = b ∧ x.tag = t) then
    if isWaiting s b t then answer p .ok [1] (cancelWaiting b t s)
    else
      match stoppable s b t with
      | some k => answer p .ok [2] (stopRunning k b t back s)
      | none => answer p .ok [3] s
  else answer p .noTag [] s

/-! ### Drain mode -/

/-- Cancel the commands of a list that wait; how many there were. -/
def cancelList : List Svc → State → State × Nat
  | [], s => (s, 0)
  | x :: xs, s =>
    if isWaiting s x.booth x.tag then
      let r := cancelList xs (cancelWaiting x.booth x.tag s)
      (r.1, r.2 + 1)
    else cancelList xs s

/-- Let go of a booth's GP outputs (R57). -/
def letGoGpsOf (b : Booth) : List (Fin 4) → State → State
  | [], s => s
  | n :: ns, s =>
    letGoGpsOf b ns (if (s.door.gp.get n).booth = some b ∧ tcxoPin s ≠ some n then letGo (gpIdx n) s else s)

/-- BOOTH_DISABLE of an enabled booth (R152). -/
def startDrain (p : Packet) (b : Booth) (s : State) : State :=
  let r := cancelList (s.cmd.svc.filter (·.booth = b)) s
  let s1 := letGoGpsOf b [0, 1, 2, 3] r.1
  let s2 := s1.onBooth b fun x => { x with mode := .draining, pend := Vector.replicate 17 0 }
  let s3 := s2.onHb fun h => { h with ibrReq := h.ibrReq &&& ~~~ (1#8 <<< b.val) }
  answer p .ok [BitVec.ofNat 8 r.2, BitVec.ofNat 8 (inFlight s3 b)] s3

/-- BOOTH_DISABLE (R152, R153). -/
def boothDisableBody (p : Packet) (s : State) : State :=
  let n := (byteAt p.payload 0).toNat
  if n = 0 ∨ 8 ≤ n then answer p .badParam [] s
  else if (s.booth (Fin.ofNat 8 n)).mode = .enabled then startDrain p (Fin.ofNat 8 n) s
  else answer p .ok [0, 0] s

/-- What a booth loses when its drain completes (R176 items 1, 3, 5); its record counts start at 0 when it is enabled
again (R324, R344). -/
def disabledBooth (x : BoothSt) : BoothSt :=
  { x with mode := .disabled, depth := 0, cars := 0, rdsMask := 0, rdsRaw := false, rtnState := .none_, codeLen := 0
           pend := Vector.replicate 17 0, mask := Vector.replicate 17 0, carCount := 0, rdsCount := 0 }

/-- FM reception that a drained booth holds ends (R176 item 2, Table 16-2 cause 5). -/
def endFmOf (b : Booth) (s : State) : State :=
  match s.fm.hold with
  | some h => if h.booth = b then endFm 5 (cancelTuning s) else s
  | none => s

/-- BOOTH_DRAIN_END (R57, R152, R176): nothing runs and no reply waits; GP outputs driven anew since the drain began are let
go too. -/
def drainEnds (b : Booth) (s : State) : State :=
  if (s.booth b).mode = .draining ∧ inFlight s b = 0 ∧ (s.booth b).replies = [] then
    let s1 := letGoGpsOf b [0, 1, 2, 3] ((endFmOf b s).onBooth b disabledBooth)
    let s2 := repair .window (b.val * 4096) 4096
      (s1.onJug fun j => { j with win := memZero j.win (b.val * 4096) (b.val * 4096 + 4096) })
    raiseTo .boothDrained 0 (clearTable (tableBase + b.val * 0x80) s2)
  else s

/-! ### Commands -/

def execCancel (p : Packet) (back : CalRun) (s : State) : Host.Outcome State Fault Refusal :=
  .next (simpleCommand op_cancel p (cancelBody p back) s)
def execBoothDisable (p : Packet) (s : State) : Host.Outcome State Fault Refusal :=
  .next (simpleCommand op_boothDisable p (boothDisableBody p) s)
def execBoothDrainEnd (booth : Booth) (s : State) : Host.Outcome State Fault Refusal := .next (drainEnds booth s)

end Sys2Proof.Machine
end

