-- ==== Sys2Proof/Machine/Rds.lean ====
section
/-! DEFINITION. RDS: subscriptions (R342), synchronisation (R341), the decoded items of Table 16-5 and their records
(R343 to R345), alternative-frequency lists (R347), and clock-time samples (R349, R357). -/

namespace Sys2Proof.Machine

/-! ### Seeing a value twice -/

/-- A value is seen: twice in a row confirms it (Table 16-5). -/
def Twice.see (v : Nat) (corr : Bool) (t : Twice) : Twice :=
  match t.last with
  | some (w, c) => if w = v then { last := some (v, corr), conf := some (v, c || corr) } else { t with last := some (v, corr) }
  | none => { t with last := some (v, corr) }

/-- The value seen last is confirmed. -/
def Twice.held (t : Twice) : Option (Nat × Bool) :=
  match t.last, t.conf with
  | some (v, _), some (w, c) => if v = w then some (w, c) else none
  | _, _ => none

/-! ### Subscriptions and delivery -/

/-- RDS_SUBSCRIBE (Table 7-2). -/
def rdsSubscribeBody (p : Packet) (s : State) : State :=
  let m := leField p.payload 0 4
  if 65536 ≤ m ∨ 1 < (byteAt p.payload 4).toNat ∨ sub p.payload 5 3 ≠ [0, 0, 0] then answer p .badParam [] s
  else
    done p (s.onBooth p.src.booth fun x =>
      { x with rdsMask := BitVec.ofNat 16 m, rdsRaw := (byteAt p.payload 4).getLsbD 0 })

/-! ### Blocks -/

/-- Shift of one bit through the check of IEC 62106 (R341, log 47): g(x) = x¹⁰ + x⁸ + x⁷ + x⁵ + x⁴ + x³ + 1. -/
def synBit (r : Nat) (b : Bool) : Nat :=
  let v := 2 * r + bit b
  if 1024 ≤ v then Nat.xor v 0x5B9 else v

/-- The remainder of 26 bits by the generator; of a block without error it is the offset word. -/
def syndrome (w : BitVec 26) : Nat := ((List.range 26).map fun i => w.getLsbD (25 - i)).foldl synBit 0

/-- Offset words of IEC 62106: A, B, C, D by position, and C' and E (R341, log 47). -/
def offsetWord (pos : Nat) : Nat := [0x0FC, 0x198, 0x168, 0x1B4].getD pos 0
def offsetC' : Nat := 0x350
def offsetE : Nat := 0x000

/-- Error bursts of up to 2 bits (R341 item 1). -/
def bursts : List (BitVec 26) := (List.range 26).map (1#26 <<< ·) ++ (List.range 25).map (3#26 <<< ·)

/-- The burst that explains a block under an offset word: none for an error-free block. -/
def burstOf (w : BitVec 26) (off : Nat) : Option (BitVec 26) :=
  bursts.find? fun e => syndrome (w ^^^ e) == off

def blockData (w : BitVec 26) : Half := (w >>> 10).truncate 16

/-- A block at position `pos` of a group (R341 items 1 and 3): error-free, corrected, or erased; the third may carry C'. A
block with offset E is discarded under RBDS and erased else. -/
def blockOf (rbds : Bool) (pos : Nat) (w : BitVec 26) : RdsBlock :=
  let offs := if pos = 2 then [offsetWord 2, offsetC'] else [offsetWord pos]
  match offs.find? fun o => syndrome w == o with
  | some o => { data := blockData w, status := .good, alt := pos = 2 && o == offsetC', offE := false }
  | none =>
    if syndrome w = offsetE then { data := blockData w, status := .erased, alt := false, offE := rbds }
    else
      match offs.findSome? fun o => (burstOf w o).map fun e => (o, e) with
      | some (o, e) =>
        { data := blockData (w ^^^ e), status := .corrected, alt := pos = 2 && o == offsetC', offE := false }
      | none => { data := blockData w, status := .erased, alt := false, offE := false }

/-- RBDS decoding is in force (Table 16-1). -/
def rbdsOn (s : State) : Bool := match s.fm.hold with | some h => h.flags.getLsbD 1 | none => false

/-- RTC period at which block `i` of a group began: 26 bits at 1187.5 bit/s each (R341). -/
def blockStart (s : State) (ageUs i : Nat) : Nat :=
  s.ao.rtc - ageUs * 32768 / 1000000 + i * 26 * 32768 * 2 / 2375

/-- A block that holds a blanked bit is erased (R334). -/
def blankBlock (s : State) (ageUs i : Nat) (b : RdsBlock) : RdsBlock :=
  if blankedIn s (blockStart s ageUs i) (blockStart s ageUs (i + 1)) then { b with status := .erased } else b

/-- The group that the decoder makes of received bits (R334, R341). -/
def decodeGroup (s : State) (g : RawGroup) : RdsGroup :=
  let blk (i : Nat) (w : BitVec 26) : RdsBlock := blankBlock s g.ageUs i (blockOf (rbdsOn s) i w)
  { a := blk 0 g.a, b := blk 1 g.b, c := blk 2 g.c, d := blk 3 g.d, ageUs := g.ageUs }

/-- The block is good or corrected (R341, R343). -/
def blockOk (b : RdsBlock) : Bool := b.status != .erased && !b.offE
/-- The block is error-free. -/
def blockClean (b : RdsBlock) : Bool := b.status == .good && !b.offE
/-- The block was corrected. -/
def blockFixed (b : RdsBlock) : Bool := b.status == .corrected && !b.offE

/-- Group type and version of block B (R341). -/
def groupType (g : RdsGroup) : Nat := g.b.data.toNat / 4096
def groupB (g : RdsGroup) : Bool := g.b.data.getLsbD 11
def groupCode (g : RdsGroup) : Byte := BitVec.ofNat 8 (2 * groupType g + bit (groupB g))

/-- Groups 0A, 0B, 1A, 2A, 2B, 3A and 4A are decoded (R342). -/
def isDecoded (g : RdsGroup) : Bool :=
  groupType g == 0 || groupType g == 2 || (!groupB g && (groupType g == 1 || groupType g == 3 || groupType g == 4))

/-- Enabled booths that have subscribed to the type of a group (R342). -/
def subscribers (g : RdsGroup) (s : State) : List Booth :=
  allBooths.filter fun b => (s.booth b).mode == .enabled && (s.booth b).rdsMask.getLsbD (groupType g)

/-- Booths that receive a RAW record of a group (R342). -/
def rawReaders (g : RdsGroup) (s : State) : List Booth :=
  (subscribers g s).filter fun b => !isDecoded g || (s.booth b).rdsRaw

/-- One record to each of a list of booths (R344). -/
def putAll (kind gtc : Byte) (corr : Bool) (data : Bytes) : List Booth → State → State
  | [], s => s
  | b :: bs, s => putAll kind gtc corr data bs (putRds b kind (if corr then 1 else 0) gtc data s)

def State.onRds (s : State) (f : Rds → Rds) : State := s.onFm fun x => { x with rds := f x.rds }

/-- Deliver an item of a decoded group to its subscribers, and remember that it has been delivered. -/
def item (g : RdsGroup) (kind gtc : Byte) (corr : Bool) (data : Bytes) (mark : Rds → Rds) (s : State) : State :=
  match subscribers g s with
  | [] => s
  | bs => (putAll kind gtc corr data bs s).onRds mark

/-! ### Synchronisation -/

/-- Error-free and erased blocks in a row after one more block (R341): a discarded one counts for neither. -/
def runStep (n : Nat × Nat) (b : RdsBlock) : Nat × Nat :=
  if b.offE then n
  else if blockClean b then (min 3 (n.1 + 1), 0)
  else if b.status == .erased then (0, min 20 (n.2 + 1))
  else (0, 0)

/-- The runs after each block of a group. -/
def runsAfter (n : Nat × Nat) : List RdsBlock → List (Nat × Nat)
  | [] => []
  | b :: bs => runStep n b :: runsAfter (runStep n b) bs

/-- Synchronisation is lost (R341 item 2). -/
def loseSync (s : State) : State :=
  raise .rdsLost (s.onRds fun r =>
    { r with sync := false, run := 0, erased := 0, piSeen := { r.piSeen with last := none } })

/-- The blocks of a group meet the synchronisation rule (R341): three error-free ones in a row acquire it, 20 erased ones in
a row lose it. -/
def noteSync (g : RdsGroup) (s : State) : State :=
  let rs := runsAfter (s.fm.rds.run, s.fm.rds.erased) [g.a, g.b, g.c, g.d]
  let got := !s.fm.rds.sync && rs.any (·.1 == 3)
  let lost := s.fm.rds.sync && rs.any (·.2 == 20)
  let last := rs.getLastD (0, 0)
  let s1 := raiseIf got .rdsSync (s.onRds fun r => { r with sync := r.sync || got, run := last.1, erased := last.2 })
  if lost then loseSync s1 else s1

/-! ### Items -/

/-- The PI that a group carries: block A, or block C' (Table 16-5). -/
def groupPi (g : RdsGroup) : Option (Nat × Bool) :=
  if blockOk g.a then some (g.a.data.toNat, blockFixed g.a)
  else if blockOk g.c && g.c.alt then some (g.c.data.toNat, blockFixed g.c) else none

/-- The PI of a group; a newly confirmed one starts PS and the AF lists anew. -/
def notePi (g : RdsGroup) (s : State) : State :=
  let r := s.fm.rds
  match groupPi g with
  | none => s.onRds fun r => { r with piSeen := { r.piSeen with last := none } }
  | some (v, c) =>
    let seen := r.piSeen.see v c
    let s1 := s.onRds fun r => { r with piSeen := seen }
    if seen.conf.map (·.1) = r.pi then s1
    else
      (s1.onRds fun r => { r with
        ps := Vector.replicate 4 Twice.start, afCodes := [], afMissing := 0, afSkip := false, afLists := [] }).onFm
        fun f => { f with af := [] }

/-- PI (Table 16-5). -/
def piItem (g : RdsGroup) (s : State) : State :=
  match s.fm.rds.piSeen.held with
  | some (v, c) =>
    if s.fm.rds.piSent = some v then s else item g 0x09 0xFF c [] (fun r => { r with piSent := some v }) s
  | none => s

/-- The two bytes of a block, most significant first. -/
def blockBytes (b : RdsBlock) : Bytes := beBytes 2 b.data.toNat

/-- A PS segment of a type-0 group: block D holds two characters. -/
def notePs (g : RdsGroup) (s : State) : State :=
  if groupType g = 0 ∧ blockOk g.d ∧ s.fm.rds.pi.isSome then
    let i : Fin 4 := Fin.ofNat 4 (g.b.data.toNat % 4)
    s.onRds fun r => { r with ps := r.ps.set i ((r.ps.get i).see g.d.data.toNat (blockFixed g.d || blockFixed g.b)) }
  else s

/-- PS (Table 16-5). -/
def psItem (g : RdsGroup) (s : State) : State :=
  let segs := s.fm.rds.ps.toList.filterMap Twice.held
  let name := segs.flatMap fun x => beBytes 2 x.1
  if groupType g = 0 ∧ segs.length = 4 ∧ s.fm.rds.psSent ≠ some name then
    item g 0x02 (groupCode g) (segs.any (·.2)) name (fun r => { r with psSent := some name }) s
  else s

/-- TP of every group, TA of type-0 groups. -/
def noteTatp (g : RdsGroup) (s : State) : State :=
  s.onRds fun r => { r with
    tp := r.tp.see (g.b.data.toNat / 1024 % 2) (blockFixed g.b)
    ta := if groupType g = 0 then r.ta.see (g.b.data.toNat / 16 % 2) (blockFixed g.b) else r.ta }

/-- TA/TP (Table 16-5): TA reads 0 until it has been seen. -/
def tatpItem (g : RdsGroup) (s : State) : State :=
  match s.fm.rds.tp.conf with
  | some (tp, c) =>
    let ta := s.fm.rds.ta.conf.getD (0, false)
    if s.fm.rds.tatpSent = some (tp, ta.1) then s
    else
      item g 0x05 (groupCode g) (c || ta.2) [BitVec.ofNat 8 tp, BitVec.ofNat 8 ta.1]
        (fun r => { r with tatpSent := some (tp, ta.1) }) s
  | none => s

/-- Frequency of an AF code in 10 kHz (R347). -/
def afFreq (c : Nat) : Nat := 8750 + 10 * c

/-- The pairs that follow the first code of a list. -/
def afPairs : List Nat → List (Nat × Nat)
  | a :: b :: rest => (a, b) :: afPairs rest
  | _ => []

/-- A list is method B for the held frequency: its first code is that frequency, and so is one of every later pair (R347); a
last code without a partner is no pair. -/
def methodB (held : Nat) (codes : List Nat) : Bool :=
  match codes with
  | c :: rest =>
    afFreq c == held
      && (afPairs rest).all fun p => afFreq p.1 == held || afFreq p.2 == held
  | [] => false

/-- Same-programme frequencies of a list (R347). -/
def afFollow (held : Nat) (codes : List Nat) : List Nat :=
  if methodB held codes then
    ((afPairs (codes.drop 1)).filter fun p => decide (p.1 < p.2)).map fun p =>
      if afFreq p.1 = held then afFreq p.2 else afFreq p.1
  else codes.map afFreq

/-- A whole list has been received. -/
def afWhole (s : State) : State :=
  let r := s.fm.rds
  let rest := r.afLists.filter (·.codes ≠ r.afCodes)
  let new : AfList :=
    match r.afLists.find? (·.codes = r.afCodes) with
    | some l => { l with twice := true, corr := l.corr || r.afCorr }
    | none => { codes := r.afCodes, corr := r.afCorr, twice := false, sent := false }
  let s1 := s.onRds fun r => { r with afLists := rest ++ [new] }
  match s.fm.hold with
  | some h =>
    if new.twice && s.fm.rds.pi.isSome then s1.onFm fun f => { f with af := afFollow h.freq new.codes } else s1
  | none => s1

/-- One AF code (R347). -/
def afCode (c : Nat) (corr : Bool) (s : State) : State :=
  let take (v : Option Nat) (s : State) : State :=
    let s1 := s.onRds fun r => { r with
      afCodes := r.afCodes ++ v.toList, afMissing := r.afMissing - 1, afSkip := false, afCorr := r.afCorr || corr }
    if s1.fm.rds.afMissing = 0 then afWhole s1 else s1
  if s.fm.rds.afSkip then (if s.fm.rds.afMissing = 0 then s.onRds fun r => { r with afSkip := false } else take none s)
  else if 224 ≤ c ∧ c ≤ 249 then
    let s1 := s.onRds fun r => { r with afCodes := [], afMissing := c - 224, afCorr := corr }
    if c = 224 then afWhole s1 else s1
  else if c = 250 then s.onRds fun r => { r with afSkip := true }
  else if 1 ≤ c ∧ c ≤ 204 ∧ 0 < s.fm.rds.afMissing then take (some c) s
  else s

/-- The two codes in block C of a 0A group. -/
def noteAf (g : RdsGroup) (s : State) : State :=
  if groupType g = 0 ∧ groupB g = false ∧ blockOk g.c then
    let x := blockFixed g.c || blockFixed g.b
    afCode (g.c.data.toNat % 256) x (afCode (g.c.data.toNat / 256) x s)
  else s

/-- AF (Tables 16-5 and 16-7): lists received twice that have not been delivered. -/
def afItem (g : RdsGroup) (s : State) : State :=
  match s.fm.rds.afLists.find? (fun l => l.twice && !l.sent), s.fm.hold with
  | some l, some h =>
    if groupType g = 0 ∧ groupB g = false then
      item g 0x04 (groupCode g) l.corr
        ([if methodB h.freq l.codes then 2 else 1, BitVec.ofNat 8 l.codes.length]
          ++ l.codes.flatMap fun c => leBytes 2 (afFreq c))
        (fun r => { r with afLists := r.afLists.map fun m => if m.codes = l.codes then { m with sent := true } else m }) s
    else s
  | _, _ => s

/-- ECC of variant 0 and PIN of a 1A group. -/
def notePin (g : RdsGroup) (s : State) : State :=
  if groupType g = 1 ∧ groupB g = false then
    s.onRds fun r => { r with
      ecc := if blockOk g.c ∧ g.c.data.toNat / 4096 % 8 = 0 then r.ecc.see (g.c.data.toNat % 256) (blockFixed g.c || blockFixed g.b) else r.ecc
      pin := if blockOk g.d then r.pin.see g.d.data.toNat (blockFixed g.d || blockFixed g.b) else r.pin }
  else s

/-- PIN/ECC (Table 16-5): the one not yet seen twice reads 0. -/
def pinItem (g : RdsGroup) (s : State) : State :=
  let e := s.fm.rds.ecc.conf
  let p := s.fm.rds.pin.conf
  let v := ((e.getD (0, false)).1, (p.getD (0, false)).1)
  if groupType g = 1 ∧ groupB g = false ∧ (e.isSome ∨ p.isSome) ∧ s.fm.rds.pinSent ≠ some v then
    item g 0x06 (groupCode g) ((e.getD (0, false)).2 || (p.getD (0, false)).2)
      ([BitVec.ofNat 8 v.1, 0] ++ leBytes 2 v.2) (fun r => { r with pinSent := some v }) s
  else s

/-- The characters that a type-2 group brings, when its blocks are good. -/
def rtChars (g : RdsGroup) : Option Bytes :=
  if groupB g then (if blockOk g.d then some (blockBytes g.d) else none)
  else if blockOk g.c && blockOk g.d then some (blockBytes g.c ++ blockBytes g.d) else none

/-- A RadioText segment; a change of the A/B flag clears the text, and so does one of the version. -/
def noteRt (g : RdsGroup) (s : State) : State :=
  if groupType g = 2 then
    let ab := (g.b.data.getLsbD 4, groupB g)
    let s1 := if s.fm.rds.rtAb = some ab then s else s.onRds fun r => { r with rtAb := some ab, rtSegs := [] }
    match rtChars g with
    | some cs =>
      let i := g.b.data.toNat % 16
      let x := blockFixed g.b || blockFixed g.d || (!groupB g && blockFixed g.c)
      s1.onRds fun r => { r with rtSegs := (i, cs, x) :: r.rtSegs.filter (·.1 ≠ i) }
    | none => s1
  else s

/-- Text from segment `i` on: its characters up to 0x0D or the end of all segments, and whether a corrected block was
used; none while a segment is missing. -/
def rtText (segs : List (Nat × Bytes × Bool)) : Nat → Nat → Option (Bytes × Bool)
  | 0, _ => some ([], false)
  | n + 1, i =>
    match segs.find? (·.1 = i) with
    | none => none
    | some (_, cs, x) =>
      if cs.contains 0x0D then some (cs.takeWhile (· != 0x0D), x)
      else match rtText segs n (i + 1) with
        | some (t, y) => some (cs ++ t, x || y)
        | none => none

/-- RT (Tables 16-5 and 16-7). -/
def rtItem (g : RdsGroup) (s : State) : State :=
  if groupType g = 2 then
    match rtText s.fm.rds.rtSegs 16 0 with
    | some (t, x) =>
      if s.fm.rds.rtSent = some t then s
      else
        item g 0x03 (groupCode g) x ([BitVec.ofNat 8 (bit (g.b.data.getLsbD 4)), BitVec.ofNat 8 t.length] ++ t)
          (fun r => { r with rtSent := some t }) s
    | none => s
  else s

/-- ODA (Tables 16-5 and 16-7). -/
def odaItem (g : RdsGroup) (s : State) : State :=
  let pair := (g.b.data.toNat % 32, g.d.data.toNat)
  if groupType g = 3 ∧ groupB g = false ∧ blockOk g.d ∧ s.fm.rds.oda.contains pair = false then
    item g 0x07 (groupCode g) (blockFixed g.b || blockFixed g.d) ([BitVec.ofNat 8 pair.1, 0] ++ leBytes 2 pair.2)
      (fun r => { r with oda := pair :: r.oda }) s
  else s

/-! ### Clock-time -/

/-- The fields of a 4A group: MJD, hour, minute, offset in half-hours (Table 16-7). -/
structure CtFields where
  mjd : Nat
  hour : Nat
  minute : Nat
  ofs : Int
deriving DecidableEq, Repr

def ctOf (g : RdsGroup) : CtFields :=
  let b := g.b.data.toNat
  let c := g.c.data.toNat
  let d := g.d.data.toNat
  { mjd := b % 4 * 32768 + c / 2, hour := c % 2 * 16 + d / 4096, minute := d / 64 % 64
    ofs := if d / 32 % 2 = 1 then -(d % 32 : Int) else (d % 32 : Int) }

/-- Device time from CT, in seconds (R349). -/
def ctSeconds (c : CtFields) : Int := ((c.mjd : Int) - 60310) * 86400 + c.hour * 3600 + c.minute * 60

/-- The CT becomes a time sample (R349). -/
def ctUsed (c : CtFields) (s : State) : Bool :=
  (match s.fm.hold, s.fm.rds.pi with
    | some h, some pi => s.nv.fmList.any fun e => decide (e.pi.toNat = pi ∧ e.freq = h.freq)
    | _, _ => false)
  && s.jug.chain.path == .fm && !s.fm.ctMinutes.contains (ctSeconds c / 60)

/-- A sample meets device time (R357): `d` is CT time minus device time at block A, in fine units. -/
def compareCt (d : Int) (s : State) : State :=
  match uNow s with
  | none => s
  | some u =>
    let gross := decide (120000 * uUnit + u < 6 * d.natAbs)
    let n := if gross then min 3 (s.fm.ctGross + 1) else 0
    let m := if gross then 0 else min 3 (s.fm.ctFine + 1)
    let s1 := s.onFm fun f => { f with
      ctGross := n, ctFine := m, ctTick := some s.ao.rtc
      ctDisagree := if n = 3 then true else if m = 3 then false else f.ctDisagree }
    if n = 3 ∧ s.fm.ctGross ≠ 3 then
      let h := match s.fm.hold with | some h => h.freq | none => 0
      logMake 0x0A srcDevice 0 (msField d ++ leBytes 2 (s.fm.rds.pi.getD 0) ++ leBytes 2 h) (raise .timeDisagree s1)
    else s1

/-- CT (Tables 16-5 and 16-7, R349). -/
def ctItem (g : RdsGroup) (s : State) : State :=
  let c := ctOf g
  if groupType g = 4 ∧ groupB g = false ∧ blockClean g.b ∧ blockClean g.c ∧ blockClean g.d ∧ c.hour ≤ 23 ∧ c.minute ≤ 59 then
    let sec := ctSeconds c
    let used := ctUsed c s
    let s1 :=
      if used then
        let s0 := raise .ctSample (s.onFm fun f => { f with ctMinutes := sec / 60 :: f.ctMinutes })
        compareCt (sec * fineSec - ((wholeTicks s.ao.fine : Int) - g.ageUs * (fineSec / 1000000))) s0
      else s
    item g 0x08 (groupCode g) false
      (leBytes 4 c.mjd ++ [BitVec.ofNat 8 c.hour, BitVec.ofNat 8 c.minute, BitVec.ofInt 8 c.ofs, BitVec.ofNat 8 (bit used)]
        ++ leBytes 4 (BitVec.ofInt 32 sec).toNat) id s1
  else s

/-! ### A group -/

def statusByte (b : RdsBlock) : Byte :=
  if !blockOk b then 2 else if blockFixed b then 1 else 0

/-- RAW records (R342, Table 16-7); a discarded block leaves no whole group to record (R341 item 3). -/
def rawRecords (g : RdsGroup) (s : State) : State :=
  if g.a.offE || g.b.offE || g.c.offE || g.d.offE then s
  else putAll 0x01 (groupCode g) (blockFixed g.a || blockFixed g.b || blockFixed g.c || blockFixed g.d)
    (leBytes 2 g.a.data.toNat ++ leBytes 2 g.b.data.toNat ++ leBytes 2 g.c.data.toNat ++ leBytes 2 g.d.data.toNat
      ++ [statusByte g.a, statusByte g.b, statusByte g.c, statusByte g.d]) (rawReaders g s) s

/-- What the decoder holds after a group. -/
def noteGroup (g : RdsGroup) (s : State) : State :=
  noteRt g (notePin g (noteAf g (noteTatp g (notePs g (notePi g s)))))

/-- The records of a decoded group, in the order of Table 16-5. -/
def groupItems (g : RdsGroup) (s : State) : State :=
  if isDecoded g then
    ctItem g (odaItem g (rtItem g (pinItem g (afItem g (tatpItem g (psItem g (piItem g s)))))))
  else s

/-- While a switch is verified a group only counts for its PI (R348). -/
def tryGroup (g : RdsGroup) (prev pi n : Nat) (s : State) : State :=
  let k := if 2 ≤ n then n else if (groupPi g).map (·.1) = some pi then n + 1 else 0
  s.onFm fun f => { f with afTry := some (prev, pi, k) }

/-- The receiver listens to the held station. -/
def listensFm (s : State) : Bool := s.rx.mode == .fm && s.fm.hold.isSome && s.fm.scan.isNone

/-- RDS_GROUP (R341 to R345, R348, R349, R383): a group counts while the receiver listens to the held station and the decoder is
in synchronisation, when its block B is good or corrected. -/
def rdsGroupIn (raw : RawGroup) (s0 : State) : State :=
  let s := if listensFm s0 then readErrors raw.ecc s0 else s0
  if listensFm s then
    let g := decodeGroup s raw
    let s1 := noteSync g s
    if s1.fm.rds.sync && blockOk g.b then
      match s1.fm.afTry with
      | some (prev, pi, n) => tryGroup g prev pi n s1
      | none => rawRecords g (groupItems g (noteGroup g s1))
    else s1
  else s

/-- RDS_SYNC_LOST (R341): the twentieth erased block in a row of a signal that brings no groups. -/
def rdsSyncLoses (s : State) : State := if s.fm.rds.sync then loseSync s else s

def execRdsSubscribe (p : Packet) (s : State) : Host.Outcome State Fault Refusal :=
  .next (simpleCommand op_rdsSubscribe p (rdsSubscribeBody p) s)
def execRdsGroup (g : RawGroup) (s : State) : Host.Outcome State Fault Refusal := .next (rdsGroupIn g s)
def execRdsSyncLost (s : State) : Host.Outcome State Fault Refusal := .next (rdsSyncLoses s)

end Sys2Proof.Machine
end

