-- ==== Sys2Proof/Machine/Dispatch.lean ====
section
/-! DEFINITION. The dispatch of a command to its meaning: one arm per row of the table. -/

namespace Sys2Proof.Machine

def exec (i : Instr) (s : State) : Host.Outcome State Fault Refusal :=
  match i with
  | .nop op p => Sys2Proof.Machine.execNop op p s
  | .cmdMalformed src m => Sys2Proof.Machine.execCmdMalformed src m s
  | .getInfo p => Sys2Proof.Machine.execGetInfo p s
  | .devReset p => Sys2Proof.Machine.execDevReset p s
  | .devResetFire => Sys2Proof.Machine.execDevResetFire s
  | .keyInfo p => Sys2Proof.Machine.execKeyInfo p s
  | .keyLoad p => Sys2Proof.Machine.execKeyLoad p s
  | .keyErase p => Sys2Proof.Machine.execKeyErase p s
  | .aesCrypt p => Sys2Proof.Machine.execAesCrypt p s
  | .cmacGen p => Sys2Proof.Machine.execCmacGen p s
  | .sha256 p => Sys2Proof.Machine.execSha256 p s
  | .edVerify p => Sys2Proof.Machine.execEdVerify p s
  | .edSign p => Sys2Proof.Machine.execEdSign p s
  | .snapshotTimeout e => Sys2Proof.Machine.execSnapshotTimeout e s
  | .keyDerive p => Sys2Proof.Machine.execKeyDerive p s
  | .random p => Sys2Proof.Machine.execRandom p s
  | .auditPub p => Sys2Proof.Machine.execAuditPub p s
  | .credSubmit p => Sys2Proof.Machine.execCredSubmit p s
  | .doorStatus p => Sys2Proof.Machine.execDoorStatus p s
  | .latchCmd p => Sys2Proof.Machine.execLatchCmd p s
  | .gpAssign p => Sys2Proof.Machine.execGpAssign p s
  | .gpWrite p => Sys2Proof.Machine.execGpWrite p s
  | .gpRead p ext => Sys2Proof.Machine.execGpRead p ext s
  | .pbusXfer p run => Sys2Proof.Machine.execPbusXfer p run s
  | .pbusRetry run => Sys2Proof.Machine.execPbusRetry run s
  | .pbusTimeout clear => Sys2Proof.Machine.execPbusTimeout clear s
  | .fmTune p cal => Sys2Proof.Machine.execFmTune p cal s
  | .fmScan p cal => Sys2Proof.Machine.execFmScan p cal s
  | .fmScanDone rssi snr cals back => Sys2Proof.Machine.execFmScanDone rssi snr cals back s
  | .fmStop p => Sys2Proof.Machine.execFmStop p s
  | .rdsSubscribe p => Sys2Proof.Machine.execRdsSubscribe p s
  | .dcStatus p => Sys2Proof.Machine.execDcStatus p s
  | .dcSubscribe p => Sys2Proof.Machine.execDcSubscribe p s
  | .dcInject p => Sys2Proof.Machine.execDcInject p s
  | .dcListen p env => Sys2Proof.Machine.execDcListen p env s
  | .dcCounters p => Sys2Proof.Machine.execDcCounters p s
  | .dcStop p back => Sys2Proof.Machine.execDcStop p back s
  | .dcStart p => Sys2Proof.Machine.execDcStart p s
  | .timeGet p => Sys2Proof.Machine.execTimeGet p s
  | .logInfo p => Sys2Proof.Machine.execLogInfo p s
  | .logRead p ecc => Sys2Proof.Machine.execLogRead p ecc s
  | .logCheckpoint p => Sys2Proof.Machine.execLogCheckpoint p s
  | .logRelease p => Sys2Proof.Machine.execLogRelease p s
  | .storeRead p ecc => Sys2Proof.Machine.execStoreRead p ecc s
  | .storeWrite p ecc cut => Sys2Proof.Machine.execStoreWrite p ecc cut s
  | .tableSet p => Sys2Proof.Machine.execTableSet p s
  | .boothStatus p => Sys2Proof.Machine.execBoothStatus p s
  | .rtnLoad p => Sys2Proof.Machine.execRtnLoad p s
  | .rtnStart p => Sys2Proof.Machine.execRtnStart p s
  | .rtnRunBegin => Sys2Proof.Machine.execRtnRunBegin s
  | .routineResume => Sys2Proof.Machine.execRoutineResume s
  | .runLimit => Sys2Proof.Machine.execRunLimit s
  | .rtnRead p => Sys2Proof.Machine.execRtnRead p s
  | .rtnWrite p => Sys2Proof.Machine.execRtnWrite p s
  | .sporeRead p => Sys2Proof.Machine.execSporeRead p s
  | .sporeWrite p => Sys2Proof.Machine.execSporeWrite p s
  | .sporeStep p => Sys2Proof.Machine.execSporeStep p s
  | .imgWrite p => Sys2Proof.Machine.execImgWrite p s
  | .imgCheckDone => Sys2Proof.Machine.execImgCheckDone s
  | .imgActivate p => Sys2Proof.Machine.execImgActivate p s
  | .imgConfirm p => Sys2Proof.Machine.execImgConfirm p s
  | .imgStatus p => Sys2Proof.Machine.execImgStatus p s
  | .lcProvision p => Sys2Proof.Machine.execLcProvision p s
  | .lcField p => Sys2Proof.Machine.execLcField p s
  | .lcRetire p => Sys2Proof.Machine.execLcRetire p s
  | .boothEnable p => Sys2Proof.Machine.execBoothEnable p s
  | .boothDisable p => Sys2Proof.Machine.execBoothDisable p s
  | .boothDrainEnd booth => Sys2Proof.Machine.execBoothDrainEnd booth s
  | .cancel p back => Sys2Proof.Machine.execCancel p back s
  | .replyRead src first count => Sys2Proof.Machine.execReplyRead src first count s
  | .eventPortRead src withPort count => Sys2Proof.Machine.execEventPortRead src withPort count s
  | .eventPortWrite src data => Sys2Proof.Machine.execEventPortWrite src data s
  | .boothPriv src acc => Sys2Proof.Machine.execBoothPriv src acc s
  | .regWrite src addr value clear => Sys2Proof.Machine.execRegWrite src addr value clear s
  | .pwrTrackCtrlWrite src value => Sys2Proof.Machine.execPwrTrackCtrlWrite src value s
  | .pwrBattCfgWrite src value => Sys2Proof.Machine.execPwrBattCfgWrite src value s
  | .pwrTcxoCfgWrite src value => Sys2Proof.Machine.execPwrTcxoCfgWrite src value s
  | .gateRequest src value => Sys2Proof.Machine.execGateRequest src value s
  | .gateWithdraw src value => Sys2Proof.Machine.execGateWithdraw src value s
  | .hbAddrCfgWrite src value => Sys2Proof.Machine.execHbAddrCfgWrite src value s
  | .hbAddrCfgApply => Sys2Proof.Machine.execHbAddrCfgApply s
  | .hbCfgWrite src value => Sys2Proof.Machine.execHbCfgWrite src value s
  | .pbCfgWrite src value => Sys2Proof.Machine.execPbCfgWrite src value s
  | .pbOwnWrite src n value => Sys2Proof.Machine.execPbOwnWrite src n value s
  | .pbClear src value clear => Sys2Proof.Machine.execPbClear src value clear s
  | .bthSlotsWrite src booth hi value => Sys2Proof.Machine.execBthSlotsWrite src booth hi value s
  | .evrRouteWrite src group value => Sys2Proof.Machine.execEvrRouteWrite src group value s
  | .evrSigWrite src value => Sys2Proof.Machine.execEvrSigWrite src value s
  | .evPendClear src group value same => Sys2Proof.Machine.execEvPendClear src group value same s
  | .evMaskWrite src group value => Sys2Proof.Machine.execEvMaskWrite src group value s
  | .synClk0CfgWrite src value => Sys2Proof.Machine.execSynClk0CfgWrite src value s
  | .synClk1CfgWrite src value => Sys2Proof.Machine.execSynClk1CfgWrite src value s
  | .frdDetCfgWrite src value => Sys2Proof.Machine.execFrdDetCfgWrite src value s
  | .frdFmShiftWrite src value => Sys2Proof.Machine.execFrdFmShiftWrite src value s
  | .frdRestart src value => Sys2Proof.Machine.execFrdRestart src value s
  | .jugRtnCfgWrite src value => Sys2Proof.Machine.execJugRtnCfgWrite src value s
  | .doorOutCfgWrite src value => Sys2Proof.Machine.execDoorOutCfgWrite src value s
  | .doorOutCfgLock src value => Sys2Proof.Machine.execDoorOutCfgLock src value s
  | .doorInCfgWrite src value => Sys2Proof.Machine.execDoorInCfgWrite src value s
  | .doorTimingWrite src value => Sys2Proof.Machine.execDoorTimingWrite src value s
  | .doorMotorCfgWrite src value => Sys2Proof.Machine.execDoorMotorCfgWrite src value s
  | .doorLedCfgWrite src value => Sys2Proof.Machine.execDoorLedCfgWrite src value s
  | .ledBlinkPeriod at_ => Sys2Proof.Machine.execLedBlinkPeriod at_ s
  | .errAck src value => Sys2Proof.Machine.execErrAck src value s
  | .holdExit src value => Sys2Proof.Machine.execHoldExit src value s
  | .dbgNonceRead count => Sys2Proof.Machine.execDbgNonceRead count s
  | .dbgChallenge sig => Sys2Proof.Machine.execDbgChallenge sig s
  | .hbWake booth => Sys2Proof.Machine.execHbWake booth s
  | .ibrStart => Sys2Proof.Machine.execIbrStart s
  | .ibrSend e => Sys2Proof.Machine.execIbrSend e s
  | .ibrTimeout => Sys2Proof.Machine.execIbrTimeout s
  | .credReport data => Sys2Proof.Machine.execCredReport data s
  | .pbusResultRead count => Sys2Proof.Machine.execPbusResultRead count s
  | .credWake asserted => Sys2Proof.Machine.execCredWake asserted s
  | .pbusIdleGate => Sys2Proof.Machine.execPbusIdleGate s
  | .verdict env => Sys2Proof.Machine.execVerdict env s
  | .heldSlotWrite env => Sys2Proof.Machine.execHeldSlotWrite env s
  | .windowClose => Sys2Proof.Machine.execWindowClose s
  | .motorStall vinMv => Sys2Proof.Machine.execMotorStall vinMv s
  | .motorTimeout vinMv => Sys2Proof.Machine.execMotorTimeout vinMv s
  | .driveFault pin vinMv => Sys2Proof.Machine.execDriveFault pin vinMv s
  | .closeRetry => Sys2Proof.Machine.execCloseRetry s
  | .dwellEnd => Sys2Proof.Machine.execDwellEnd s
  | .deadTimeEnd => Sys2Proof.Machine.execDeadTimeEnd s
  | .letGoEnd pin => Sys2Proof.Machine.execLetGoEnd pin s
  | .doorSenseChange asserted => Sys2Proof.Machine.execDoorSenseChange asserted s
  | .handleAssert => Sys2Proof.Machine.execHandleAssert s
  | .privacySet => Sys2Proof.Machine.execPrivacySet s
  | .tamper asserted => Sys2Proof.Machine.execTamper asserted s
  | .railStart r => Sys2Proof.Machine.execRailStart r s
  | .poweringDown cause tear tamper => Sys2Proof.Machine.execPoweringDown cause tear tamper s
  | .powerOnRestart => Sys2Proof.Machine.execPowerOnRestart s
  | .alwaysOnLoss => Sys2Proof.Machine.execAlwaysOnLoss s
  | .vddioUv => Sys2Proof.Machine.execVddioUv s
  | .supplyUvReset rail torn => Sys2Proof.Machine.execSupplyUvReset rail torn s
  | .nrstReset widthNs => Sys2Proof.Machine.execNrstReset widthNs s
  | .resetRelease env => Sys2Proof.Machine.execResetRelease env s
  | .ringmasterRelease env => Sys2Proof.Machine.execRingmasterRelease env s
  | .keepCheck ok => Sys2Proof.Machine.execKeepCheck ok s
  | .trialWdtExpire => Sys2Proof.Machine.execTrialWdtExpire s
  | .activationDue => Sys2Proof.Machine.execActivationDue s
  | .updateReset => Sys2Proof.Machine.execUpdateReset s
  | .trackingPass env => Sys2Proof.Machine.execTrackingPass env s
  | .canaryTrip block percent => Sys2Proof.Machine.execCanaryTrip block percent s
  | .preRaiseDone => Sys2Proof.Machine.execPreRaiseDone s
  | .leaseStart plan => Sys2Proof.Machine.execLeaseStart plan s
  | .leaseEnd => Sys2Proof.Machine.execLeaseEnd s
  | .leaseExpire => Sys2Proof.Machine.execLeaseExpire s
  | .listenWindowOpen plan env => Sys2Proof.Machine.execListenWindowOpen plan env s
  | .coexGrant cal back => Sys2Proof.Machine.execCoexGrant cal back s
  | .windowEnd cal => Sys2Proof.Machine.execWindowEnd cal s
  | .calBackground chan cal => Sys2Proof.Machine.execCalBackground chan cal s
  | .synUnlock cal back => Sys2Proof.Machine.execSynUnlock cal back s
  | .refLoss => Sys2Proof.Machine.execRefLoss s
  | .refReturn cal back => Sys2Proof.Machine.execRefReturn cal back s
  | .dllUnlock => Sys2Proof.Machine.execDllUnlock s
  | .blankAssert pin => Sys2Proof.Machine.execBlankAssert pin s
  | .dcHeaderDecode bits acq => Sys2Proof.Machine.execDcHeaderDecode bits acq s
  | .dcFrameEnd env => Sys2Proof.Machine.execDcFrameEnd env s
  | .carPartialTimeout mast tag => Sys2Proof.Machine.execCarPartialTimeout mast tag s
  | .carVerified env => Sys2Proof.Machine.execCarVerified env s
  | .snapshotSweepDone => Sys2Proof.Machine.execSnapshotSweepDone s
  | .rdsGroup g => Sys2Proof.Machine.execRdsGroup g s
  | .afCheck held readings cals back => Sys2Proof.Machine.execAfCheck held readings cals back s
  | .afVerify back => Sys2Proof.Machine.execAfVerify back s
  | .leapSecond => Sys2Proof.Machine.execLeapSecond s
  | .checkpointTimer => Sys2Proof.Machine.execCheckpointTimer s
  | .checkpointSigned => Sys2Proof.Machine.execCheckpointSigned s
  | .rngFail samples => Sys2Proof.Machine.execRngFail samples s
  | .rngRetest samples => Sys2Proof.Machine.execRngRetest samples s
  | .x32Loss => Sys2Proof.Machine.execX32Loss s
  | .x32Return => Sys2Proof.Machine.execX32Return s
  | .jugNop => Sys2Proof.Machine.execJugNop s
  | .jugMovi d imm => Sys2Proof.Machine.execJugMovi d imm s
  | .jugMov d a => Sys2Proof.Machine.execJugMov d a s
  | .jugAdd d a b => Sys2Proof.Machine.execJugAdd d a b s
  | .jugSub d a b => Sys2Proof.Machine.execJugSub d a b s
  | .jugAddi d a imm => Sys2Proof.Machine.execJugAddi d a imm s
  | .jugAnd d a b => Sys2Proof.Machine.execJugAnd d a b s
  | .jugOr d a b => Sys2Proof.Machine.execJugOr d a b s
  | .jugXor d a b => Sys2Proof.Machine.execJugXor d a b s
  | .jugShr d a sh => Sys2Proof.Machine.execJugShr d a sh s
  | .jugShl d a sh => Sys2Proof.Machine.execJugShl d a sh s
  | .jugAbs d a => Sys2Proof.Machine.execJugAbs d a s
  | .jugLd d a imm ecc => Sys2Proof.Machine.execJugLd d a imm ecc s
  | .jugSt d a imm => Sys2Proof.Machine.execJugSt d a imm s
  | .jugLdi d a step => Sys2Proof.Machine.execJugLdi d a step s
  | .jugSti d a step => Sys2Proof.Machine.execJugSti d a step s
  | .jugGath16 a b start => Sys2Proof.Machine.execJugGath16 a b start s
  | .jugGath16r a b d => Sys2Proof.Machine.execJugGath16r a b d s
  | .jugClr x => Sys2Proof.Machine.execJugClr x s
  | .jugMul x a b => Sys2Proof.Machine.execJugMul x a b s
  | .jugMac x a b => Sys2Proof.Machine.execJugMac x a b s
  | .jugMsu x a b => Sys2Proof.Machine.execJugMsu x a b s
  | .jugAsha x ash => Sys2Proof.Machine.execJugAsha x ash s
  | .jugRnd d x sh => Sys2Proof.Machine.execJugRnd d x sh s
  | .jugExp d x => Sys2Proof.Machine.execJugExp d x s
  | .jugNorm d x => Sys2Proof.Machine.execJugNorm d x s
  | .jugBr cond tgt => Sys2Proof.Machine.execJugBr cond tgt s
  | .jugDbnz d tgt => Sys2Proof.Machine.execJugDbnz d tgt s
  | .jugSetfv tgt clr => Sys2Proof.Machine.execJugSetfv tgt clr s
  | .jugGetf d f => Sys2Proof.Machine.execJugGetf d f s
  | .jugResume => Sys2Proof.Machine.execJugResume s
  | .jugEnd a cnt => Sys2Proof.Machine.execJugEnd a cnt s
  | .handleRelease => Sys2Proof.Machine.execHandleRelease s
  | .blankRelease pin => Sys2Proof.Machine.execBlankRelease pin s
  | .blankLong => Sys2Proof.Machine.execBlankLong s
  | .rdsSyncLost => Sys2Proof.Machine.execRdsSyncLost s
  | .vddioReturn => Sys2Proof.Machine.execVddioReturn s
  | .demodLate fm lost back => Sys2Proof.Machine.execDemodLate fm lost back s
  | .frondSaturation => Sys2Proof.Machine.execFrondSaturation s
  | .vsysCurrentLimit acting => Sys2Proof.Machine.execVsysCurrentLimit acting s
  | .fmTuneDone m => Sys2Proof.Machine.execFmTuneDone m s
  | .engineOperationEnd e => Sys2Proof.Machine.execEngineOperationEnd e s

end Sys2Proof.Machine
end

