-- ==== Sys2Proof/Machine/Pins.lean ====
section
/-! DEFINITION. What every pin does, as Table 3-6 gives it by phase (R43, R58, R60): the pins of Table 3-1 that carry a signal,
the event outputs (R374), LOCKDET (R255), and the buck's mode (R63, R250). All of it follows from the rest of the state. -/

namespace Sys2Proof.Machine

/-- The signal pins of Table 3-1. -/
inductive Pin where
  | nrst | addr | hscl | hsda | evt (k : Fin 2) | pscl | psda | credWake | latchA | latchB | drvEn | gp (n : Fin 4)
  | doorSense | handleIn | tamperIn | i2sBclk | i2sWs | i2sDout | coexReq | coexPri | coexGnt | blankA | blankB
  | dbgClk | dbgIo | statusLed | clkout0 | clkfb | clkout1P | clkout1N | lockdet | tcxoIn | x32In | x32Out | rfinU | rfinV
  | motorIsns | test | pgood
deriving DecidableEq, Repr

/-- What a pin does: high-impedance with no pull or with an internal one, driven to a level, a signal that the device sends,
a bus it takes part in, an analogue or clock input, the ADDR source, or the pulse density of LOCKDET in 1/200. -/
inductive PinState where
  | z | zPu | zPd | low | high | signal | bus | input | source | oscillating | leak | density (n : Nat)
deriving DecidableEq, Repr

/-- The columns of Table 3-6, and what R43 covers: absent, unpowered, or VDDIO below 1.5 V. Powering down lies within the row
POWERING_DOWN, so no state between rows shows it. -/
inductive PinPhase where
  | off | reset | booting | running | holdSafe | down
deriving DecidableEq, Repr

/-- The column of the present state. -/
def pinPhase (s : State) : PinPhase :=
  if s.phase = .unpowered ∨ s.pwr.vddioOk = false then .off
  else match s.phase with
    | .reset => .reset | .booting => .booting | .running => .running | .holdSafe => .holdSafe | .unpowered => .off

/-- A booth whose nibble of `EVR_SIG` has bit `k` set has a signalling bit (R161, R374). -/
def evtSignals (s : State) (k : Fin 2) : Bool := allBooths.any fun b => (sigOf s b).testBit k.val && anySignal (s.booth b)

/-- A level. -/
def levelOf (b : Bool) : PinState := if b then .high else .low

/-- A rest-sensed pin under its drive: to its active level, the complement of its rest level, or to its rest level
(R54, R56). -/
def restLevel (s : State) (i : Fin 7) : PinState :=
  let rest := s.door.rest.get i == .high
  match s.door.pins.get i with
  | .z => .z
  | .active => levelOf (!rest)
  | .rest => levelOf rest
  | .letGo => levelOf rest

/-- A clock output: the clock while it is on, else low (R251, R253). -/
def clockPin (on : Bool) : PinState := if on then .signal else .low

/-- A pin that is low while the device boots, gives `x` while it runs, is low in hold-safe, and Z in the other columns. -/
def lowUntilRun (c : PinPhase) (x : PinState) : PinState :=
  match c with
  | .booting => .low | .running => x | .holdSafe => .low | .off => .z | .reset => .z | .down => .z

/-- A pin that is Z but while the device runs, when it gives `x`, and in hold-safe, when it gives `y`. -/
def zUntilRun (c : PinPhase) (x y : PinState) : PinState :=
  match c with
  | .running => x | .holdSafe => y | .booting => .z | .off => .z | .reset => .z | .down => .z

/-- A pin with an internal pull, which R43 takes away. -/
def pulled (c : PinPhase) (x : PinState) : PinState := if c = .off then .z else x

/-- Table 3-6. -/
def pinIn (c : PinPhase) (p : Pin) (s : State) : PinState :=
  match p with
  | .nrst => if c = .down || (c = .reset && s.boot.nrstDrive) then .low else pulled c .zPu
  | .addr => if c = .booting && s.hb.strap.isNone then .source else .z
  | .hscl => zUntilRun c .bus .bus
  | .hsda => zUntilRun c .bus .bus
  | .evt k => zUntilRun c (if evtSignals s k then .low else .z) .low
  | .pscl => zUntilRun c (if gateOpen s 5 then .bus else .z) .z
  | .psda => zUntilRun c (if gateOpen s 5 then .bus else .z) .z
  | .credWake => .z
  | .latchA => zUntilRun c (restLevel s 0) (restLevel s 0)
  | .latchB => zUntilRun c (restLevel s 1) (restLevel s 1)
  | .drvEn => zUntilRun c (restLevel s 2) (restLevel s 2)
  | .gp n => zUntilRun c (restLevel s (gpIdx n)) (restLevel s (gpIdx n))
  | .doorSense => .z
  | .handleIn => .z
  | .tamperIn => .z
  | .i2sBclk => lowUntilRun c (clockPin (audioAsked s))
  | .i2sWs => lowUntilRun c (clockPin (audioAsked s))
  | .i2sDout => lowUntilRun c (clockPin (audioAsked s))
  | .coexReq => lowUntilRun c (levelOf s.rx.coexReq)
  | .coexPri => lowUntilRun c (levelOf s.rx.coexPri)
  | .coexGnt => pulled c .zPu
  | .blankA => pulled c .zPd
  | .blankB => pulled c .zPd
  | .dbgClk => pulled c .zPd
  | .dbgIo => pulled c .zPd
  | .statusLed => zUntilRun c (if s.door.ledOn then .low else .z) (if s.door.ledOn then .low else .z)
  | .clkout0 =>
    match c with
    | .booting => .low | .running => clockPin s.rx.clk0On | .holdSafe => clockPin s.rx.clk0On
    | .off => .z | .reset => .z | .down => .z
  | .clkfb => pulled c .input
  | .clkout1P => lowUntilRun c (clockPin s.rx.clk1On)
  | .clkout1N => lowUntilRun c (clockPin s.rx.clk1On)
  | .lockdet => lowUntilRun c (.density (lockdetDensity s))
  | .tcxoIn => pulled c .input
  | .x32In => if s.phase = .unpowered ∧ s.ao.afterDown = false then .z else .oscillating
  | .x32Out => if s.phase = .unpowered ∧ s.ao.afterDown = false then .z else .oscillating
  | .rfinU => zUntilRun c (if chainRuns s && !s.rx.inputV then .leak else .z) .z
  | .rfinV => zUntilRun c (if chainRuns s && s.rx.inputV then .leak else .z) .z
  | .motorIsns => zUntilRun c .input .z
  | .test => pulled c .zPd
  | .pgood => if c = .down || (c = .reset && !s.pwr.pgood) then .low else .z

/-- What a pin does now. -/
def pinNow (p : Pin) (s : State) : PinState := pinIn (pinPhase s) p s

/-- The buck's frequency in kHz while it is fixed: TCXO_IN/52 in LISTEN with a valid reference; else its own oscillator
(R63, R250 item 3). -/
def buckKhz (s : State) : Option Nat :=
  if (s.rx.mode == .datacast || s.rx.mode == .fm) && s.rx.refOk then some 500 else none

end Sys2Proof.Machine
end

