-- ==== Sys2Proof/WellFormed.lean ====
section
/-! DEFINITION. Which commands are well formed: operands that the rows of the table can carry. The meanings are total and do
not ask for it; a command outside it is one that no sender and no event of the spec can bring. -/

namespace Sys2Proof

/-- The debug port acts as booth 0 (R104, R155). -/
def Src.wf (x : Src) : Bool := x.path == .host || x.booth == 0

/-- A packet carries at most 1024 payload bytes (R139); on the debug port its bytes fit one transfer (Table 5-5). -/
def Packet.wf (p : Packet) : Bool :=
  p.src.wf && decide (p.payload.length ≤ 1024 ∧ (p.src.path = .debug → p.payload.length ≤ 249))

/-- The bytes after the address that are no port byte of their own arm (Table 6-3), and a booth byte that names no booth. -/
def PortWrite.wf : PortWrite → Bool
  | .boothByte b => decide (8 ≤ b.toNat)
  | .other b => decide (b = 0 ∨ 4 < b.toNat)
  | _ => true

/-- A code that Table 7-2 does not list, or `NOP` itself (R144). -/
def NopOp.wf : NopOp → Bool
  | .nop => true
  | .unlisted op => !(Machine.opTable.any fun r => r.op == op)

/-- A `LEN` above 1024 is the first case of R141. -/
def Malformed.wf : Malformed → Bool
  | .length n => decide (1024 < n.toNat)
  | .crc => true
  | .early => true
  | .tagReuse _ => true

/-- A memory error lies in a 64-bit word (R383). -/
def EccHit.wf (h : EccHit) : Bool := decide (h.addr % 8 = 0)

/-- Canary readings name blocks of Table 2-1. -/
def canariesWf (rs : List (Nat × Nat)) : Bool := rs.all fun r => decide (r.1 ≤ 10)

/-- A register access begins at an address below 0x1000 (R114). -/
def RegAccess.wf : RegAccess → Bool
  | .read a _ => decide (a.toNat < 0x1000)
  | .write a _ _ => decide (a.toNat < 0x1000)

/-- The environment's memory errors lie in words (R383). -/
def CarEnv.wf (e : CarEnv) : Bool := e.ecc.all EccHit.wf

/-- `RND` writes r or v (Table 13-4). -/
def JReg.rndTarget : JReg → Bool
  | .a _ => false
  | _ => true

/-- A command of the table with operands its row can carry. -/
def Instr.wf : Instr → Bool
  | .nop op p => op.wf && p.wf
  | .cmdMalformed src m => src.wf && m.wf
  | .getInfo p => p.wf
  | .devReset p => p.wf
  | .devResetFire => true
  | .keyInfo p => p.wf
  | .keyLoad p => p.wf
  | .keyErase p => p.wf
  | .aesCrypt p => p.wf
  | .cmacGen p => p.wf
  | .sha256 p => p.wf
  | .edVerify p => p.wf
  | .edSign p => p.wf
  | .snapshotTimeout _ => true
  | .keyDerive p => p.wf
  | .random p => p.wf
  | .auditPub p => p.wf
  | .credSubmit p => p.wf
  | .doorStatus p => p.wf
  | .latchCmd p => p.wf
  | .gpAssign p => p.wf
  | .gpWrite p => p.wf
  | .gpRead p _ => p.wf
  | .pbusXfer p _ => p.wf
  | .pbusRetry _ => true
  | .pbusTimeout _ => true
  | .fmTune p _ => p.wf
  | .fmScan p _ => p.wf
  | .fmScanDone _ _ _ _ => true
  | .fmStop p => p.wf
  | .rdsSubscribe p => p.wf
  | .dcStatus p => p.wf
  | .dcSubscribe p => p.wf
  | .dcInject p => p.wf
  | .dcListen p _ => p.wf
  | .dcCounters p => p.wf
  | .dcStop p _ => p.wf
  | .dcStart p => p.wf
  | .timeGet p => p.wf
  | .logInfo p => p.wf
  | .logRead p ecc => p.wf && ecc.all EccHit.wf
  | .logCheckpoint p => p.wf
  | .logRelease p => p.wf
  | .storeRead p ecc => p.wf && ecc.all EccHit.wf
  | .storeWrite p ecc _ => p.wf && ecc.all EccHit.wf
  | .tableSet p => p.wf
  | .boothStatus p => p.wf
  | .rtnLoad p => p.wf
  | .rtnStart p => p.wf
  | .rtnRunBegin => true
  | .routineResume => true
  | .runLimit => true
  | .rtnRead p => p.wf
  | .rtnWrite p => p.wf
  | .sporeRead p => p.wf
  | .sporeWrite p => p.wf
  | .sporeStep p => p.wf
  | .imgWrite p => p.wf
  | .imgCheckDone => true
  | .imgActivate p => p.wf
  | .imgConfirm p => p.wf
  | .imgStatus p => p.wf
  | .lcProvision p => p.wf
  | .lcField p => p.wf
  | .lcRetire p => p.wf
  | .boothEnable p => p.wf
  | .boothDisable p => p.wf
  | .boothDrainEnd booth => booth != 0
  | .cancel p _ => p.wf
  | .replyRead src first _ => src.wf && (first.all PortWrite.wf)
  | .eventPortRead src _ _ => src.wf
  | .eventPortWrite src _ => src.wf
  | .boothPriv src acc => src.wf && acc.wf
  | .regWrite src addr _ _ => src.wf && decide (addr.toNat < 0x1000 ∧ addr.toNat % 4 = 0)
  | .pwrTrackCtrlWrite src _ => src.wf
  | .pwrBattCfgWrite src _ => src.wf
  | .pwrTcxoCfgWrite src _ => src.wf
  | .gateRequest src _ => src.wf
  | .gateWithdraw src _ => src.wf
  | .hbAddrCfgWrite src _ => src.wf
  | .hbAddrCfgApply => true
  | .hbCfgWrite src _ => src.wf
  | .pbCfgWrite src _ => src.wf
  | .pbOwnWrite src _ _ => src.wf
  | .pbClear src _ _ => src.wf
  | .bthSlotsWrite src booth _ _ => src.wf && booth != 0
  | .evrRouteWrite src _ _ => src.wf
  | .evrSigWrite src _ => src.wf
  | .evPendClear src _ _ _ => src.wf
  | .evMaskWrite src _ _ => src.wf
  | .synClk0CfgWrite src _ => src.wf
  | .synClk1CfgWrite src _ => src.wf
  | .frdDetCfgWrite src _ => src.wf
  | .frdFmShiftWrite src _ => src.wf
  | .frdRestart src _ => src.wf
  | .jugRtnCfgWrite src _ => src.wf
  | .doorOutCfgWrite src _ => src.wf
  | .doorOutCfgLock src _ => src.wf
  | .doorInCfgWrite src _ => src.wf
  | .doorTimingWrite src _ => src.wf
  | .doorMotorCfgWrite src _ => src.wf
  | .doorLedCfgWrite src _ => src.wf
  | .ledBlinkPeriod _ => true
  | .errAck src _ => src.wf
  | .holdExit src _ => src.wf
  | .dbgNonceRead _ => true
  | .dbgChallenge _ => true
  | .hbWake _ => true
  | .ibrStart => true
  | .ibrSend _ => true
  | .ibrTimeout => true
  | .credReport _ => true
  | .pbusResultRead _ => true
  | .credWake _ => true
  | .pbusIdleGate => true
  | .verdict e => e.ecc.all EccHit.wf
  | .heldSlotWrite e => e.wf
  | .windowClose => true
  | .motorStall _ => true
  | .motorTimeout _ => true
  | .driveFault _ _ => true
  | .closeRetry => true
  | .dwellEnd => true
  | .deadTimeEnd => true
  | .letGoEnd _ => true
  | .doorSenseChange _ => true
  | .handleAssert => true
  | .privacySet => true
  | .tamper _ => true
  | .railStart _ => true
  | .poweringDown _ _ _ => true
  | .powerOnRestart => true
  | .alwaysOnLoss => true
  | .vddioUv => true
  | .supplyUvReset _ _ => true
  | .nrstReset _ => true
  | .resetRelease _ => true
  | .ringmasterRelease e => canariesWf e.readings
  | .keepCheck _ => true
  | .trialWdtExpire => true
  | .activationDue => true
  | .updateReset => true
  | .trackingPass e => canariesWf e.readings
  | .canaryTrip _ percent => decide (85 < percent)
  | .preRaiseDone => true
  | .leaseStart _ => true
  | .leaseEnd => true
  | .leaseExpire => true
  | .listenWindowOpen _ _ => true
  | .coexGrant _ _ => true
  | .windowEnd _ => true
  | .calBackground _ _ => true
  | .synUnlock _ _ => true
  | .refLoss => true
  | .refReturn _ _ => true
  | .dllUnlock => true
  | .blankAssert _ => true
  | .dcHeaderDecode _ _ => true
  | .dcFrameEnd env => env.ecc.all EccHit.wf
  | .carPartialTimeout _ _ => true
  | .carVerified e => e.wf
  | .snapshotSweepDone => true
  | .rdsGroup g => g.ecc.all EccHit.wf
  | .afCheck _ _ _ _ => true
  | .afVerify _ => true
  | .leapSecond => true
  | .checkpointTimer => true
  | .checkpointSigned => true
  | .rngFail _ => true
  | .rngRetest _ => true
  | .x32Loss => true
  | .x32Return => true
  | .jugNop => true
  | .jugMovi _ _ => true
  | .jugMov _ _ => true
  | .jugAdd _ _ _ => true
  | .jugSub _ _ _ => true
  | .jugAddi _ _ _ => true
  | .jugAnd _ _ _ => true
  | .jugOr _ _ _ => true
  | .jugXor _ _ _ => true
  | .jugShr _ _ _ => true
  | .jugShl _ _ _ => true
  | .jugAbs _ _ => true
  | .jugLd _ _ _ ecc => ecc.all EccHit.wf
  | .jugSt _ _ _ => true
  | .jugLdi _ _ _ => true
  | .jugSti _ _ _ => true
  | .jugGath16 _ _ _ => true
  | .jugGath16r _ _ _ => true
  | .jugClr _ => true
  | .jugMul _ _ _ => true
  | .jugMac _ _ _ => true
  | .jugMsu _ _ _ => true
  | .jugAsha _ _ => true
  | .jugRnd d _ _ => d.rndTarget
  | .jugExp _ _ => true
  | .jugNorm _ _ => true
  | .jugBr _ _ => true
  | .jugDbnz _ _ => true
  | .jugSetfv _ _ => true
  | .jugGetf _ _ => true
  | .jugResume => true
  | .jugEnd _ cnt => decide (cnt.toNat % 2 = 0 ∧ cnt.toNat ≤ 64)
  | .handleRelease => true
  | .blankRelease _ => true
  | .blankLong => true
  | .rdsSyncLost => true
  | .vddioReturn => true
  | .demodLate _ _ _ => true
  | .frondSaturation => true
  | .vsysCurrentLimit _ => true
  | .fmTuneDone _ => true
  | .engineOperationEnd _ => true

end Sys2Proof
end

