-- ==== Sys2Proof/Safety.lean ====
section
/-! DEFINITION. What statements about the block are said in: when a packet is accepted, what an answered command leaves,
events and log entries between two states, what a run may never do, and the invariants that every step keeps. -/

namespace Sys2Proof

/-- A retune meets nothing amiss: its stored words check, and a stored retune locks within its bound (R240, R248). -/
def CalRun.good (c : CalRun) : Prop := c.stored = true ∧ c.entryOk = true ∧ c.bandOk = true

end Sys2Proof

namespace Sys2Proof.Machine

/-! ### Packets -/

/-- The row of Table 7-2, the needs and the packet of a command packet of the table; RTN_START, which has a step of its
own, codes the table does not list, and a STORE_WRITE that a reset cuts short (R190) are left out. -/
def packetRow : Instr → Option (OpRow × (State → Needs) × Packet)
  | .nop .nop p => some (op_nop, fun _ => Needs.none, p)
  | .getInfo p => some (op_getInfo, fun _ => Needs.none, p)
  | .devReset p => some (op_devReset, fun _ => Needs.none, p)
  | .keyInfo p => some (op_keyInfo, fun _ => Needs.none, p)
  | .keyLoad p => some (op_keyLoad, fun _ => Needs.none, p)
  | .keyErase p => some (op_keyErase, fun _ => Needs.none, p)
  | .aesCrypt p => some (op_aesCrypt, fun _ => Needs.none, p)
  | .cmacGen p => some (op_cmacGen, fun _ => Needs.none, p)
  | .sha256 p => some (op_sha256, fun _ => Needs.none, p)
  | .edVerify p => some (op_edVerify, fun _ => Needs.none, p)
  | .edSign p => some (op_edSign, fun _ => Needs.none, p)
  | .keyDerive p => some (op_keyDerive, fun _ => Needs.none, p)
  | .random p => some (op_random, fun _ => Needs.none, p)
  | .auditPub p => some (op_auditPub, fun _ => Needs.none, p)
  | .credSubmit p => some (op_credSubmit, fun _ => Needs.none, p)
  | .doorStatus p => some (op_doorStatus, fun _ => Needs.none, p)
  | .latchCmd p => some (op_latchCmd, fun _ => Needs.none, p)
  | .gpAssign p => some (op_gpAssign, fun _ => Needs.none, p)
  | .gpWrite p => some (op_gpWrite, fun _ => Needs.none, p)
  | .gpRead p _ => some (op_gpRead, fun _ => Needs.none, p)
  | .pbusXfer p _ => some (op_pbusXfer, needsPbus, p)
  | .fmTune p _ => some (op_fmTune, needsFm ((byteAt p.payload 2).getLsbD 0), p)
  | .fmScan p _ => some (op_fmScan, needsFm false, p)
  | .fmStop p => some (op_fmStop, fun _ => Needs.none, p)
  | .rdsSubscribe p => some (op_rdsSubscribe, fun _ => Needs.none, p)
  | .dcStatus p => some (op_dcStatus, fun _ => Needs.none, p)
  | .dcSubscribe p => some (op_dcSubscribe, fun _ => Needs.none, p)
  | .dcInject p => some (op_dcInject, fun _ => Needs.none, p)
  | .dcListen p _ => some (op_dcListen, needsRadio, p)
  | .dcCounters p => some (op_dcCounters, fun _ => Needs.none, p)
  | .dcStop p _ => some (op_dcStop, fun _ => Needs.none, p)
  | .dcStart p => some (op_dcStart, fun _ => Needs.none, p)
  | .timeGet p => some (op_timeGet, fun _ => Needs.none, p)
  | .logInfo p => some (op_logInfo, fun _ => Needs.none, p)
  | .logRead p _ => some (op_logRead, fun _ => Needs.none, p)
  | .logCheckpoint p => some (op_logCheckpoint, fun _ => Needs.none, p)
  | .logRelease p => some (op_logRelease, fun _ => Needs.none, p)
  | .storeRead p _ => some (op_storeRead, fun _ => Needs.none, p)
  | .storeWrite p _ none => some (op_storeWrite, fun _ => Needs.none, p)
  | .tableSet p => some (op_tableSet, fun _ => Needs.none, p)
  | .boothStatus p => some (op_boothStatus, fun _ => Needs.none, p)
  | .rtnLoad p => some (op_rtnLoad, needsJuggler, p)
  | .rtnRead p => some (op_rtnRead, needsJuggler, p)
  | .rtnWrite p => some (op_rtnWrite, needsJuggler, p)
  | .sporeRead p => some (op_sporeRead, fun _ => Needs.none, p)
  | .sporeWrite p => some (op_sporeWrite, fun _ => Needs.none, p)
  | .sporeStep p => some (op_sporeStep, fun _ => Needs.none, p)
  | .imgWrite p => some (op_imgWrite, fun _ => Needs.none, p)
  | .imgActivate p => some (op_imgActivate, fun _ => Needs.none, p)
  | .imgConfirm p => some (op_imgConfirm, fun _ => Needs.none, p)
  | .imgStatus p => some (op_imgStatus, fun _ => Needs.none, p)
  | .lcProvision p => some (op_lcProvision, fun _ => Needs.none, p)
  | .lcField p => some (op_lcField, fun _ => Needs.none, p)
  | .lcRetire p => some (op_lcRetire, fun _ => Needs.none, p)
  | .boothEnable p => some (op_boothEnable, fun _ => Needs.none, p)
  | .boothDisable p => some (op_boothDisable, fun _ => Needs.none, p)
  | .cancel p _ => some (op_cancel, fun _ => Needs.none, p)
  | _ => none

/-- The packet of a command packet, its opcode byte, and RTN_START and unlisted codes with it. -/
def packetOf (i : Instr) : Option (Byte × Packet) :=
  match i with
  | .nop (.unlisted op) p => some (op, p)
  | .rtnStart p => some (op_rtnStart.op, p)
  | i => (packetRow i).map fun x => (x.1.op, x.2.2)

/-- The packet reaches the command port of its booth, which is awake: its address is answered and acknowledged
(R110, R117), and its path can carry its bytes (Table 5-5). -/
structure Reaches (p : Packet) (s : State) : Prop where
  answers : busAnswers s p.src true = true
  awake : s.hb.asleep = false
  fits : busFits p.src (6 + p.payload.length) = true

/-- The packet is accepted into the service table: none of the refusals of R35 to R37 and R141 case 4 meets it. -/
structure Accepts (p : Packet) (s : State) : Prop extends Reaches p s where
  slot : refusalWaiting s p.src.booth = false
  tag : tagOut s p.src.booth p.tag = false
  depth : depthCount s p.src.booth < (s.booth p.src.booth).depth
  room : tableFull s p.src.booth = false

/-- The packet is accepted and passes steps 2 to 5 of R142: the owner's opcode comes from booth 0, hold-safe allows it,
its length is one of the row, and the blocks it needs serve it; the device is not in the loader state. -/
structure Serves (r : OpRow) (n : Needs) (p : Packet) (s : State) : Prop extends Accepts p s where
  loader : s.boot.loader = false
  owner : r.ownerOnly = true → p.src.booth = 0
  hold : s.phase = .holdSafe → r.hold = true
  length : r.lenOk p.payload.length = true
  juggler : n.juggler = true → s.jug.released = true
  gates : n.gates &&& heldOff s = 0
  power : n.power = true → s.pwr.battEnd = false

/-- The host bus after the address of a packet has been answered (R111): the command port is selected. -/
def heardBus (src : Src) (s : State) : Hb :=
  { s.hb with
    sel := if src.path = .host ∧ addrMode s ≠ 2 then s.hb.sel.set src.booth .command else s.hb.sel
    singleBooth := if src.path = .host ∧ addrMode s = 2 then src.booth else s.hb.singleBooth
    singleSel := if src.path = .host ∧ addrMode s = 2 then .command else s.hb.singleSel
    ibrQuiet := quietAfter src s, out := [], ack := true }

/-- The state in which an accepted command acts: it stands in the service table (R34). -/
def accepted (op : Byte) (p : Packet) (s : State) : State :=
  { s with
    hb := heardBus p.src s
    cmd := { s.cmd with svc := s.cmd.svc ++ [{ booth := p.src.booth, tag := p.tag, opcode := op }] } }

/-- A booth's reply queue with one more reply (R150). -/
def withReply (r : Reply) (x : BoothSt) : BoothSt := { x with replies := x.replies ++ [r] }

/-- A booth's reply arises: one more reply waits in its queue, and an in-band request where the booth has them on
(R124, R150). -/
def replyPlaced (b : Booth) (r : Reply) (s : State) : State :=
  { s with
    hb := { s.hb with ibrReq := if ibrOn s b then s.hb.ibrReq ||| (1#8 <<< b.val) else s.hb.ibrReq }
    cmd := { s.cmd with booths := s.cmd.booths.set b (withReply r (s.booth b)) } }

/-- What a command that is accepted and answered at once leaves, when it changes nothing but what `s` already holds: the
service table as before, its reply in the queue of its booth. -/
def replied (p : Packet) (st : Status) (payload : Bytes) (s : State) : State :=
  replyPlaced p.src.booth { tag := p.tag, status := st, payload := payload, refusal := false }
    { s with hb := heardBus p.src s }

/-- What the end of a command that had been accepted before leaves: its entry has left the service table, its reply is in
the queue of its booth (Table 2-3). -/
def answered (b : Booth) (tag : Byte) (st : Status) (payload : Bytes) (s : State) : State :=
  replyPlaced b { tag := tag, status := st, payload := payload, refusal := false }
    { s with cmd := { s.cmd with svc := s.cmd.svc.filter fun x => !(x.booth = b ∧ x.tag = tag) } }

/-- A read transaction on the host bus has been acknowledged and its bytes sent. -/
def sentTo (bytes : Bytes) (s : State) : State :=
  { s with hb := { s.hb with ibrQuiet := none, out := bytes, ack := true } }

/-! ### Registers -/

/-- A register write reaches the block: its address is answered, the device is awake and not in the loader state, and the
sender may reach the register: the owner every one, a booth its own window (R114, R115). -/
structure Writes (src : Src) (addr : Nat) (s : State) : Prop where
  answers : busAnswers s src true = true
  awake : s.hb.asleep = false
  loader : s.boot.loader = false
  view : src.booth = 0 ∨ addr < 0x100

/-- The host bus after a word has been written at an address: it is acknowledged, and the selection is the register port
at the next word (R111, R114). -/
def heardWrite (src : Src) (addr : Nat) (s : State) : Hb :=
  { s.hb with
    sel := if src.path = .host ∧ addrMode s ≠ 2 then s.hb.sel.set src.booth (.register (addr + 4)) else s.hb.sel
    singleBooth := if src.path = .host ∧ addrMode s = 2 then src.booth else s.hb.singleBooth
    singleSel := if src.path = .host ∧ addrMode s = 2 then .register (addr + 4) else s.hb.singleSel
    ibrQuiet := quietAfter src s, out := [], ack := true }

/-- Writable registers of the owner's view outside its window and its alias (Tables 8-4 to 8-9). -/
def ownerRegs : List Nat :=
  [0x200, 0x210, 0x214, 0x220, 0x304, 0x308, 0x320, 0x328, 0x450, 0x500, 0x504, 0x518, 0x600, 0x604, 0x614, 0x624, 0x704
    , 0x70C, 0x710, 0x714, 0x71C, 0x748]

/-- An aligned address below 0x1000 that holds a register its sender may write: pending and mask registers of the window or,
for the owner, of its alias, `PB_OWNn`, `EVR_ROUTEg`, `BTH_SLOTSn` and the registers of `ownerRegs` (R155, R159, R160). -/
def writable (a : Nat) : Bool :=
  let window (o : Nat) : Bool := decide ((0x40 ≤ o ∧ o < 0x84) ∨ (0x90 ≤ o ∧ o < 0xD4))
  window a || (decide (0x800 ≤ a ∧ a < 0x900) && window (a - 0x800)) || decide (0x340 ≤ a ∧ a < 0x360)
    || decide (0x400 ≤ a ∧ a < 0x444) || decide (0x470 ≤ a ∧ a < 0x4A8) || ownerRegs.contains a

/-- A write that changes nothing but the selection. -/
def regWritten (src : Src) (addr : Nat) (s : State) : State := { s with hb := heardWrite src addr s }

/-! ### Events and log entries between two states -/

/-- A source is pending for a booth. -/
def pends (e : Ev) (b : Booth) (s : State) : Bool := ((s.booth b).pend.get (Fin.ofNat 17 e.place.1)).getLsbD e.place.2

/-- The event is pending afterwards for every enabled booth it is routed to (R165). -/
def Raised (e : Ev) (s t : State) : Prop :=
  ∀ b : Booth, (s.booth b).mode = .enabled → routed s (Fin.ofNat 17 e.place.1) b = true → pends e b t = true

/-- Nothing but the host bus and the booths differs. -/
def OnlyBus (s t : State) : Prop := t = { s with hb := t.hb, cmd := t.cmd }

/-- The log takes an entry at once: no entry waits for its turn, and neither the seal nor the entry before it has been
reached (R369). -/
structure LogReady (s : State) : Prop where
  wait : s.vd.wait = []
  open_ : s.nv.log.sealed_ = false
  room : s.nv.log.next + 1 < sealSeq

/-- The newest log entry is one of this kind, source and body, made now, with the next sequence. -/
def Logged (kind source : Byte) (body : Bytes) (s t : State) : Prop :=
  t.nv.log.next = s.nv.log.next + 1 ∧
  ∃ e : LogEntry, t.nv.log.entries.head? = some e ∧ e.seq = s.nv.log.next ∧ e.kind = kind ∧ e.source = source
    ∧ e.body = padTo 32 body

/-! ### The Keep's engines -/

/-- An engine is free and no command, car or checkpoint waits for it. -/
def EngineFree : EngineId → State → Prop
  | .aes, s => s.keep.aes = Engine.start
  | .hash, s => s.keep.hash = Engine.start ∧ s.car.queue = [] ∧ s.keep.cpWanted = false

/-- The engine set to a value. -/
def onEngine (e : EngineId) (x : Engine) (s : State) : State :=
  match e with
  | .aes => { s with keep := { s.keep with aes := x } }
  | .hash => { s with keep := { s.keep with hash := x } }

/-- The engine of an identifier. -/
def engineOf (s : State) : EngineId → Engine
  | .aes => s.keep.aes
  | .hash => s.keep.hash

/-- An operation that has just started on a free engine: its generation snapshots are taken, and the checks of its first
read are made (R196, R201). -/
def started (j : Job) (s : State) : Engine :=
  { cur := some (.cmd j (j.op.slots.map fun k => (k, (keySlot s k).gen)) (startStatus s j.op)), queue := [] }

/-- The command of a packet is accepted without an immediate reply, and its operation starts on a free engine or waits
behind a busy one (R193). -/
def StartsOn (i : Instr) (e : EngineId) (opcode : Byte) (p : Packet) (op : JobOp) (s : State) : Prop :=
  (EngineFree e s → exec i s = .next
      (onEngine e (started { booth := p.src.booth, tag := p.tag, op := op } s) (accepted opcode p s)))
  ∧ ((engineOf s e).cur ≠ none → exec i s = .next
      (onEngine e { engineOf s e with queue := (engineOf s e).queue ++ [{ booth := p.src.booth, tag := p.tag, op := op }] }
        (accepted opcode p s)))

/-- An operation whose result is its reply and the slot it writes; life-cycle commands and debug signatures end by rules of
their own (R102, R104). -/
def JobOp.plain : JobOp → Bool
  | .provision => false
  | .lifeMove _ _ => false
  | .dbgSig _ _ => false
  | _ => true

/-- An erased slot: empty, its generation one higher (R199, R200). -/
def erasedSlot (x : KeySlot) : KeySlot := { typ := .empty, key := [], gen := x.gen + 1, epoch := 0, fromCar := false }

/-- Slot `k` afterwards: its content written, its generation one higher, every other slot as before (R200). -/
def SlotWritten (k : Nat) (typ : KeyType) (key : Bytes) (s t : State) : Prop :=
  (keySlot t k).typ = typ ∧ (keySlot t k).key = key ∧ (keySlot t k).gen = (keySlot s k).gen + 1
    ∧ ∀ j, j ≠ k → keySlot t j = keySlot s j

/-- The reply of a tag joins the queue of its booth. -/
def ReplyAdded (b : Booth) (tag : Byte) (st : Status) (payload : Bytes) (s t : State) : Prop :=
  (t.booth b).replies = (s.booth b).replies ++ [{ tag := tag, status := st, payload := payload, refusal := false }]

/-! ### The radio -/

/-- The radio has entered LISTEN at an LO frequency: locked on the control word of R238, the delay lines of the chain's
fronds empty, the block detectors at 0 (R266, R268). -/
structure Tuned (path : ChainPath) (khz : Nat) (s t : State) : Prop where
  lock : t.rx.lock = true
  word : t.rx.fcw = some (fcwOf khz, dividerOf khz)
  path : t.jug.chain.path = path
  lines : t.jug.chain.fronds = Vector.replicate 7 Frond.start
  count : t.jug.chain.count = 0
  rms : t.jug.det.rms = 0
  env : t.jug.det.env = 0
  peak : t.jug.det.peak = s.jug.det.peak

/-- The window in progress, if any, does not end when its last needed car is applied: it is a command's, or a frame is being
received (R330). -/
def WindowStays (s : State) : Prop :=
  s.rx.window = none ∨ s.rx.frame ≠ none ∨ ∃ w, s.rx.window = some w ∧ w.cmd ≠ none

/-! ### Booth tables -/

/-- The physical address that a booth's tables give a virtual one (R178, R185), whatever the checks say. -/
def translated (s : State) (b : Booth) (va : Nat) : Nat :=
  entryTarget 1 (entryAt s (entryTarget 0 (entryAt s (l1Addr b (va / 4096))) + va / 4096 % 16 * 8)) + va % 4096

/-- Every page of a transfer passes its walk (R185). -/
def AllPass (s : State) (b : Booth) (write : Bool) (va n : Nat) : Prop :=
  ∀ k, va / 4096 ≤ k → k ≤ (va + n - 1) / 4096 → ∃ a, walkPage s b write k = .ok [a]

/-- Page `k` is the first of a transfer that faults (R185). -/
def FaultsAt (s : State) (b : Booth) (write : Bool) (va n k kind level : Nat) : Prop :=
  va / 4096 ≤ k ∧ k ≤ (va + n - 1) / 4096 ∧ walkPage s b write k = .fault k kind level
    ∧ ∀ j, va / 4096 ≤ j → j < k → ∃ a, walkPage s b write j = .ok [a]

/-- What a walk fault leaves (R186): the fault register, the reply, the event for the booth, and nothing else. -/
def FaultTold (p : Packet) (va k kind level : Nat) (s t : State) : Prop :=
  (t.booth p.src.booth).walkFault = at_ 0 (max va (k * 4096)) ||| at_ 24 kind ||| at_ 28 level
    ∧ ReplyAdded p.src.booth p.tag (if kind = 1 then .walkRange else if kind = 2 then .walkDevice else .walkEcc)
        (leBytes 4 (max va (k * 4096))) s t
    ∧ pends .walkFault p.src.booth t = true ∧ (∀ b, b ≠ p.src.booth → t.booth b = s.booth b) ∧ OnlyBus s t

/-! ### Booth routines -/

/-- A run at its start (R273): the arguments as 16-bit words in the lanes, everything else 0, no vector. -/
structure FreshRun (b : Booth) (tag : Byte) (entry : Nat) (args : Bytes) (x : Run) : Prop where
  booth : x.booth = b
  tag : x.tag = tag
  pc : x.pc = entry / 4
  lanes : ∀ i : Fin 16, x.v.get i = BitVec.ofNat 16 (leField args (2 * i.val) 2)
  r : ∀ i : Fin 8, x.r.get i = 0
  a : ∀ i : Fin 4, x.a.get i = 0
  accs : x.acc0 = 0 ∧ x.acc1 = 0
  flags : x.z = false ∧ x.n = false ∧ x.vf = false ∧ x.s = false
  vector : x.vector = none ∧ x.handler = false ∧ x.resuming = false ∧ x.gatherFrom = none

/-- The run `x` is at instruction `i`: it goes on, its program counter lies within its code, and the word there is the
one of `i` (R275); the Juggler is released (R28), and no word holds an uncorrectable error. -/
structure At (i : Instr) (x : Run) (s : State) : Prop where
  run : s.jug.run = some x
  going : s.jug.paused = false
  alive : s.phase = .running ∨ s.phase = .holdSafe
  released : gateOpen s 0 = true
  loader : s.boot.loader = false
  within : 4 * x.pc < (s.booth x.booth).codeLen
  word : jugDecode (BitVec.ofNat 32 (ofLe (memRead s.jug.code (x.booth.val * 2048 + 4 * x.pc) 4))) = some i
  sound : s.err.bad = []

/-- The run goes on as `y`; nothing else of the block differs. -/
def ranTo (y : Run) (s : State) : State := { s with jug := { s.jug with run := some y } }

/-- The run goes on at a word after an instruction other than RESUME: one that RESUME had executed again has left the
handler state (R278). -/
def ranAt (x y : Run) (pc : Nat) (s : State) : State :=
  ranTo { y with pc := pc, handler := y.handler && !x.resuming, resuming := false, gatherFrom := none } s

/-- The run goes on after an instruction that is no branch: the next word. -/
def ranOn (x y : Run) (s : State) : State := ranAt x y (x.pc + 1) s

/-- A word of the window of the run's booth. -/
def window (s : State) (x : Run) (w : Nat) : Half := BitVec.ofNat 16 (ofLe (memRead s.jug.win (x.booth.val * 4096 + 2 * w) 2))

/-- A run has ended with a reply (R279, R280, Table 7-2): no run, the routine's state, windows and code as they were. -/
def RunEnded (x : Run) (st : Status) (payload : Bytes) (rs : RtnState) (s t : State) : Prop :=
  t.jug.run = none ∧ (t.booth x.booth).rtnState = rs ∧ ReplyAdded x.booth x.tag st payload s t
    ∧ t.jug.win = s.jug.win ∧ t.jug.code = s.jug.code ∧ t.jug.queue = s.jug.queue ∧ t.mem = s.mem ∧ t.nv = s.nv

/-- A trap (R279, Table 13-5): the fault record is the reply, and EV_RTN_TRAP is raised for the booth. -/
def Trapped (x : Run) (cause lane : Byte) (addr : Nat) (s t : State) : Prop :=
  RunEnded x .routineTrap ([cause, lane] ++ leBytes 2 x.pc ++ leBytes 4 addr) .trapped s t
    ∧ ((s.booth x.booth).mode = .enabled → pends .rtnTrap x.booth t = true)

/-- An instruction of the run `x` faults, with `y` what a gather has written by then (R278): the handler is entered with
the fault record filled, or, with no vector set or in the handler, the routine traps, in the handler with `NESTED`. -/
def Faults (x y : Run) (cause : BitVec 7) (lane : Byte) (addr : Nat) (s : State) (o : Host.Outcome State Fault Refusal) : Prop :=
  (∀ v, x.vector = some v → x.handler = false →
    o = .next (ranTo { y with
      flt := { cause := cause, nested := false, lane := lane, pc := x.pc, addr := addr }, handler := true, pc := v
      resuming := false, gatherFrom := none } s))
  ∧ ((x.vector = none ∨ x.handler = true) → ∃ t, o = .next t
      ∧ Trapped x (cause.zeroExtend 8 ||| if x.handler then 0x80 else 0) lane addr s t)

/-! ### Resets -/

/-- The state after a reset cause has asserted (R82, R84): the reset phase, the cause recorded, NRST driven from a cause of
R84 to the end of the reset but never while VDDIO is below 1.5 V (R43), every group at its reset value but the always-on
domain, nonvolatile state and memory, which stay. -/
structure ResetBy (c : Cause) (s t : State) : Prop where
  phase : t.phase = .reset
  causes : t.ao.causes = (if s.phase = .reset then s.ao.causes else 0) ||| 1#11 <<< (c.code - 1)
  seen : t.ao.seen = s.ao.seen ||| 1#11 <<< (c.code - 1)
  nrst : t.boot.nrstDrive = (s.pwr.vddioOk
    && (decide (c.code = 4 ∨ c.code = 5 ∨ 7 ≤ c.code) || decide (s.phase = .reset ∧ s.boot.nrstDrive = true)))
  booths : t.cmd = Cmd.start
  keep : t.keep.aes = Engine.start ∧ t.keep.hash = Engine.start
  door : (∀ i, t.door.pins.get i = .z) ∧ t.door.latch = .idle ∧ t.door.outCfg = Door.start.outCfg
  volatile : t.vd = Vd.start ∧ t.pb = Pb.start ∧ t.rx = Rx.start ∧ t.jug = Jug.start ∧ t.car = Car.start ∧ t.fm = Fm.start
  kept : t.nv.keys = s.nv.keys ∧ t.nv.spore = s.nv.spore ∧ t.nv.log = s.nv.log ∧ t.nv.revoked = s.nv.revoked
    ∧ t.nv.seqs = s.nv.seqs ∧ t.nv.doorRec = s.nv.doorRec ∧ t.mem = s.mem
  time : t.ao.rtc = s.ao.rtc ∧ t.ao.fine = s.ao.fine ∧ t.ao.known = s.ao.known ∧ t.ao.tamper = s.ao.tamper

/-! ### Invariants -/

/-- No rest-sensed pin is driven, and none is let go, unless its rest code is LOW or HIGH: FLOAT and UNSENSED pins stay
high-impedance (R51, R52). -/
def PinsAtRest (d : Door) : Prop :=
  ∀ i : Fin 7, d.pins.get i ≠ .z → d.rest.get i = .low ∨ d.rest.get i = .high

/-- What every step keeps: the canonical form of the three memories (log 3), VCORE within its 36 codes (Table 2-2), and
no drive of a pin without a known rest level. -/
structure Sound (s : State) : Prop where
  mem : s.mem.wf = true
  code : s.jug.code.wf = true
  win : s.jug.win.wf = true
  level : s.pwr.level ≤ 35
  target : s.pwr.preTarget ≤ 35
  pins : PinsAtRest s.door

end Sys2Proof.Machine
end

