-- ==== Sys2Proof/Certificates/Slice0/Obligations.lean ====
section
/-! DEFINITION. The statements about the block that the provers prove. -/

open Sys2Proof Sys2Proof.Machine

/-- For every command c and every state with c at the front of its queue, one step is exec of c on that state with the
queue's rest. This is the model's own interface (log 7): the spec gives the block no queue of commands. (00_scope,
95_what_each_step_holds.) -/
def Obligations.StepRunsFrontCommand : Prop :=
  ∀ (c : Instr) (rest : List Instr) (s : State), s.pending = c :: rest →
    step s = exec c { s with pending := rest } ∧ Sys2Proof.core.step s = exec c { s with pending := rest }

/-- With an empty queue a step lets one RTC period pass: unless the always-on domain is off, the RTC counts one, device
time grows by one period plus its trim while it is known, and no nonvolatile state, memory, latch or pin changes; where
the radio does not listen and nothing settles, neither the radio nor the chain does. That a step is one RTC period is the
model's own choice (log 1). (17_time_quorum_and_lichen_log,
04_supply_and_gating.) -/
def Obligations.EmptyQueuePassesOneRtcPeriod : Prop :=
  ∀ s : State, s.pending = [] → ¬ (s.phase = .unpowered ∧ s.ao.afterDown = false) →
    ∃ t, step s = .next t ∧ t.ao.rtc = s.ao.rtc + 1
      ∧ t.ao.fine = (if timeKnown s then s.ao.fine + (tickFine s).toNat else s.ao.fine)
      ∧ t.pending = [] ∧ t.phase = s.phase ∧ t.nv = s.nv ∧ t.mem = s.mem ∧ t.door = s.door ∧ t.vd = s.vd
      ∧ t.pwr = s.pwr ∧ t.boot = s.boot ∧ t.keep = s.keep ∧ t.pb = s.pb ∧ t.car = s.car ∧ t.fm = s.fm ∧ t.err = s.err
      ∧ t.jug = { s.jug with chain := t.jug.chain, det := t.jug.det } ∧ t.rx.mode = s.rx.mode ∧ t.rx.chan = s.rx.chan
      ∧ (s.rx.mode ≠ .datacast → s.rx.mode ≠ .fm → s.rx.settling = false → s.rx.clk1Settling = false →
          t.rx = s.rx ∧ t.jug = s.jug)

/-- Every command, on every state, answers a next state: the spec gives every row an effect, so no row ends in a fault
or a refusal. (95_what_each_step_holds.) -/
def Obligations.EveryCommandAnswersNext : Prop := ∀ (c : Instr) (s : State), ∃ t, exec c s = .next t

/-- The state right after reset meets Sound: its three memories are in canonical form, VCORE is within its codes, and no
pin is driven. (03_pins_and_rest_states, 02_handshake_core.) -/
def Obligations.ResetIsSound : Prop := Sound State.reset

/-- From every state that meets Sound, every step that answers a next state answers one that meets Sound: the canonical
form of the SRAM, routine and window memories (log 3), VCORE_CODE and the pre-raise target at most 35, and no
rest-sensed pin driven or let go while its rest code is FLOAT or UNSENSED. (R51, R52, R54, Table 2-2.) -/
def Obligations.EveryStepKeepsSound : Prop := ∀ s t : State, Sound s → step s = .next t → Sound t

/-- After reset the device is in the reset phase; VCORE is at its highest code; the power, host-bus, PBUS, door, clock,
detector and Juggler registers hold the values of their tables; booth 0 is enabled with depth 8 and every key slot,
booths 1 to 7 are disabled; every event group is routed to booth 0; every selection is the reply port; nothing is
pending; the device is BLANK with slot B named active and both image slots EMPTY, and only slot 0 holds a key, a
WRAP256 key. (R30, R70, R107, R111, R120, R403, R404, R167, Table 6-7, Table 8-3, Table 8-6, Table 8-9.) -/
def Obligations.ResetRegistersHaveTheirValues : Prop :=
  let s := State.reset
  s.pending = [] ∧ s.phase = .reset
    ∧ s.pwr.level = 35 ∧ s.pwr.trackCtrl = 0x2300 ∧ s.pwr.battCfg = 0x5E64 ∧ s.pwr.tcxoCfg = 0x300 ∧ s.pwr.gateReq = 0
    ∧ s.hb.addrCfg = 0x700 ∧ s.hb.cfg = 0x000A0002 ∧ s.pb.cfg = 0x00190321 ∧ (∀ n, s.pb.own.get n = 0)
    ∧ (∀ b, s.hb.sel.get b = .reply) ∧ s.hb.singleSel = .reply ∧ s.hb.singleBooth = 0
    ∧ s.door.outCfg = 0 ∧ s.door.inCfg = 0x1400 ∧ s.door.timing = 0x00C81E1E ∧ s.door.motor = 0x00050190
    ∧ s.door.ledCfg = 0x000A0500 ∧ s.rx.clk0 = 0 ∧ s.rx.clk1 = 0x65900000 ∧ s.rx.coexCfg = 0x30 ∧ s.jug.detCfg = 0x407
    ∧ s.jug.rtnCfg = 0xFF0A ∧ s.jug.fmShift = 0 ∧ s.cmd.sig = 1 ∧ (∀ g, s.cmd.route.get g = 1) ∧ s.cmd.svc = []
    ∧ (s.booth 0).mode = .enabled ∧ (s.booth 0).depth = 8 ∧ (s.booth 0).slots = BitVec.allOnes 64
    ∧ (∀ b, b ≠ 0 → (s.booth b).mode = .disabled ∧ (s.booth b).depth = 0)
    ∧ (∀ b g, (s.booth b).pend.get g = 0 ∧ (s.booth b).mask.get g = 0)
    ∧ s.err.aValid = false ∧ s.err.bValid = false ∧ s.err.overflow = 0
    ∧ lifeCycle s = .blank ∧ s.nv.br.active = .b ∧ s.nv.br.stA = .empty ∧ s.nv.br.stB = .empty
    ∧ (s.nv.keys.get 0).typ = .wrap256 ∧ ∀ k, k ≠ 0 → (s.nv.keys.get k).typ = .empty

/-- For every command packet: when the device does not answer its sender's address with a write bit (the booth is
disabled or draining, has no address in the present mode, or the phase answers none), the packet is not acknowledged
and nothing changes but what the bus shows of the transfer. A malformed packet (a length above 1024, a bad CRC, an
early end, or a tag that is outstanding) that reaches an enabled booth whose ST_BUSY slot is free raises
EV_CMD_MALFORMED for that booth, counts one more (saturating) with its cause code, is acknowledged only when it
ended early, and changes nothing else beyond the host bus and the booths; a command packet with an outstanding tag
meets the same. (R37, R45, R104, R110, R141, R152, Table 3-6.) -/
def Obligations.UnansweredAndMalformedPacketsAreNotRun : Prop :=
  (
  ∀ (i : Instr) (op : Byte) (p : Packet) (s : State), packetOf i = some (op, p) → busAnswers s p.src true = false →
    exec i s = .next { s with hb := { s.hb with out := [], ack := false } })
  ∧
  (
  (∀ (src : Src) (m : Malformed) (s : State), busAnswers s src true = true → s.hb.asleep = false → s.boot.loader = false →
    (s.booth src.booth).mode = .enabled → refusalWaiting s src.booth = false →
    (∀ n, m = .length n → 1024 < n.toNat) → (∀ t, m = .tagReuse t → tagOut s src.booth t = true) →
    ∃ t, exec (.cmdMalformed src m) s = .next t ∧ OnlyBus s t ∧ t.cmd.svc = s.cmd.svc
      ∧ (t.booth src.booth).malCount = min 65535 ((s.booth src.booth).malCount + 1)
      ∧ (t.booth src.booth).malCause
          = (match m with | .length _ => 0x01 | .crc => 0x02 | .early => 0x03 | .tagReuse _ => 0x04)
      ∧ (t.booth src.booth).replies = (s.booth src.booth).replies ∧ pends .cmdMalformed src.booth t = true
      ∧ t.hb.ack = decide (m = .early))
  ∧ ∀ (i : Instr) (op : Byte) (p : Packet) (s : State), packetOf i = some (op, p) → Reaches p s → s.boot.loader = false →
      (s.booth p.src.booth).mode = .enabled → refusalWaiting s p.src.booth = false →
      tagOut s p.src.booth p.tag = true →
      ∃ t, exec i s = .next t ∧ OnlyBus s t ∧ t.cmd.svc = s.cmd.svc ∧ (t.booth p.src.booth).malCause = 0x04
        ∧ (t.booth p.src.booth).malCount = min 65535 ((s.booth p.src.booth).malCount + 1)
        ∧ (t.booth p.src.booth).replies = (s.booth p.src.booth).replies ∧ pends .cmdMalformed p.src.booth t = true
        ∧ t.hb.ack = false)

/-- For every command packet of an awake booth whose ST_BUSY slot holds an unread reply: the byte after the port byte is
NACKed, and nothing changes but the selection of the command port: no reply, no service-table entry, no event. Once
that reply has been read, the NACK has ended: a NOP that the booth may send is acknowledged. (R37.) -/
def Obligations.BusySlotNacksEveryPacket : Prop :=
  ∀ (i : Instr) (op : Byte) (p : Packet) (s : State), packetOf i = some (op, p) → Reaches p s →
    (refusalWaiting s p.src.booth = true → exec i s = .next { s with hb := { heardBus p.src s with ack := false } })
    ∧ (Serves op_nop Needs.none p s → ∃ t, exec (.nop .nop p) s = .next t ∧ t.hb.ack = true)

/-- For every command packet that reaches an enabled booth whose ST_BUSY slot is free and whose tag is not outstanding:
when the booth's depth is used up, and else when the service table is full for that booth (48 entries for booth 0,
the 40 shared ones for the others), the booth's queue gets a reply with the packet's tag, ST_BUSY and one cause byte
(0x01 depth, 0x02 table), EV_QUEUE_FULL is pending for that booth, no service-table entry is taken, the tag stays
free, every other booth's replies stay, and nothing beyond the host bus and the booths changes. (R35.) -/
def Obligations.RefusedPacketGetsBusyWithItsCause : Prop :=
  ∀ (i : Instr) (op : Byte) (p : Packet) (s : State), packetOf i = some (op, p) → Reaches p s →
    (s.booth p.src.booth).mode = .enabled → s.boot.loader = false →
    refusalWaiting s p.src.booth = false → tagOut s p.src.booth p.tag = false →
    ∀ cause : Byte,
      (cause = 0x01 ∧ (s.booth p.src.booth).depth ≤ depthCount s p.src.booth)
        ∨ (cause = 0x02 ∧ depthCount s p.src.booth < (s.booth p.src.booth).depth
          ∧ (if p.src.booth = 0 then 48 ≤ s.cmd.svc.length else 40 ≤ (s.cmd.svc.filter (·.booth ≠ 0)).length)) →
      ∃ t, exec i s = .next t ∧ OnlyBus s t ∧ t.cmd.svc = s.cmd.svc
        ∧ (t.booth p.src.booth).replies
            = (s.booth p.src.booth).replies ++ [{ tag := p.tag, status := .busy, payload := [cause], refusal := true }]
        ∧ (∀ b, b ≠ p.src.booth → t.booth b = s.booth b)
        ∧ tagOut t p.src.booth p.tag = false ∧ pends .queueFull p.src.booth t = true

/-- An RTN_START that finds room, of a booth whose routine is in flight, is answered at once with ST_BUSY, one byte,
cause 0x03; it takes no service-table entry, raises no event, and changes nothing but the host bus and that booth's
replies. (R38.) -/
def Obligations.SecondRoutineIsRefusedWithoutEvent : Prop :=
  ∀ (p : Packet) (s : State), Accepts p s → routineBusy s p.src.booth = true →
    exec (.rtnStart p) s = .next (replyPlaced p.src.booth
      { tag := p.tag, status := .busy, payload := [0x03], refusal := true } { s with hb := heardBus p.src s })

/-- For every command packet of the table that is accepted outside the loader state: the first failing check of R142
decides the reply. The checks are, in order: an owner's opcode from a booth other than 0 (ST_PRIV), an opcode not
allowed in hold-safe (ST_HOLD_SAFE), a length that the row does not give (ST_BAD_LENGTH), the Juggler not released
(ST_NOT_READY), a block held off by request (ST_GATED), BATT_END for what it refuses (ST_POWER_LOW). The reply has
no payload, the command leaves the service table, and nothing else changes. (R142, R144, R271.) -/
def Obligations.FirstFailingCheckDecidesTheReply : Prop :=
  ∀ (i : Instr) (r : OpRow) (n : State → Needs) (p : Packet) (s : State), packetRow i = some (r, n, p) → Accepts p s →
    s.boot.loader = false →
    ∀ st : Status,
      (if r.ownerOnly = true ∧ p.src.booth ≠ 0 then some Status.priv
       else if s.phase = .holdSafe ∧ r.hold = false then some Status.holdSafe
       else if r.lenOk p.payload.length = false then some Status.badLength
       else if (n s).juggler = true ∧ s.jug.released = false then some Status.notReady
       else if (n s).gates &&& heldOff s ≠ 0 then some Status.gated
       else if (n s).power = true ∧ s.pwr.battEnd = true then some Status.powerLow
       else none) = some st →
      exec i s = .next (replied p st [] s)

/-- A NOP that passes its checks is answered ST_OK without payload; a code that Table 7-2 does not list is answered
ST_BAD_OPCODE; GET_INFO gives ID_UNIQUE, the image version, the booth, its depth, the places left of it with this
command counted, and a reserved byte; BOOTH_STATUS gives state, depth, commands in flight with this one, waiting
replies, and the malformed count and cause; DEV_RESET is answered ST_OK and leaves its reset to follow. Nothing else
of the block changes: each statement is an equation for the whole next state. (R144, R142, R143, Table 7-2, Table
8-2.) -/
def Obligations.IdentityCommandsAnswer : Prop :=
  (∀ (p : Packet) (s : State), Serves op_nop Needs.none p s → exec (.nop .nop p) s = .next (replied p .ok [] s))
  ∧ (∀ (op : Byte) (p : Packet) (s : State), Accepts p s → s.boot.loader = false →
      exec (.nop (.unlisted op) p) s = .next (replied p .badOpcode [] s))
  ∧ (∀ (p : Packet) (s : State), Serves op_getInfo Needs.none p s →
      exec (.getInfo p) s = .next (replied p .ok
        (leBytes 8 Config.idUnique.toNat ++ leBytes 4 s.boot.version.toNat
          ++ [BitVec.ofNat 8 p.src.booth.val, BitVec.ofNat 8 (s.booth p.src.booth).depth
            , BitVec.ofNat 8 ((s.booth p.src.booth).depth - (depthCount s p.src.booth + 1)), 0]) s))
  ∧ (∀ (p : Packet) (s : State), Serves op_boothStatus Needs.none p s →
      exec (.boothStatus p) s = .next (replied p .ok
        ([BitVec.ofNat 8 (s.booth p.src.booth).mode.code, BitVec.ofNat 8 (s.booth p.src.booth).depth
          , BitVec.ofNat 8 (inFlight s p.src.booth + 1), BitVec.ofNat 8 (s.booth p.src.booth).replies.length]
          ++ leBytes 2 (s.booth p.src.booth).malCount ++ [(s.booth p.src.booth).malCause, 0]) s))
  ∧ ∀ (p : Packet) (s : State), Serves op_devReset Needs.none p s →
      exec (.devReset p) s = .next (replied p .ok []
        { s with boot := { s.boot with devReset := some (p.src.booth, p.tag) } })

/-- DEV_RESET_FIRE after a DEV_RESET, a failed KEEP_CHECK, a trial whose watchdog has counted its length, an UPDATE_RESET
whose conditions hold, an NRST pulse of 2 us or more, an undervoltage of VCORE or VNVM, and a loss of VDDIO each reset
the block with their own cause: the reset phase begins with that cause recorded, every volatile group is at its reset
value, no pin is driven, and keys, spore cells, log, revocation set, stored sequences, memory and device time stay. NRST
is driven for a cause of R84 until the reset ends, and never while VDDIO is below 1.5 V; an undervoltage takes PGOOD low.
A trial watchdog that has not counted its length, and an NRST pulse below 200 ns, do nothing. (R65, R82, R83, R84, R43,
R58, R95, R97, R192, Table 3-6, Table 5-1, Table 7-2.) -/
def Obligations.ResetCausesEnterTheResetPhase : Prop :=
  (∀ s : State, s.boot.devReset.isSome = true → ∃ t, exec .devResetFire s = .next t ∧ ResetBy .devReset s t)
  ∧ (∀ s : State, alive s = true → ∃ t, exec (.keepCheck false) s = .next t ∧ ResetBy .keepFault s t)
  ∧ (∀ (n : Nat) (s : State), alive s = true → s.boot.trial = true → s.boot.trialStart = some n →
      let limit := if s.boot.trialS = 0 then 120 else s.boot.trialS
      (n + limit * 32768 ≤ s.ao.rtc → ∃ t, exec .trialWdtExpire s = .next t ∧ ResetBy .trialWdt s t)
      ∧ (s.ao.rtc < n + limit * 32768 → exec .trialWdtExpire s = .next s))
  ∧ (∀ s : State, alive s = true → updateReady s = true → ∃ t, exec .updateReset s = .next t ∧ ResetBy .update s t)
  ∧ (∀ (ns : Nat) (s : State), s.phase ≠ .unpowered → s.pwr.vddioOk = true → 2000 ≤ ns →
      ∃ t, exec (.nrstReset ns) s = .next t ∧ ResetBy .nrstPin s t)
  ∧ (∀ (ns : Nat) (s : State), ns < 200 → exec (.nrstReset ns) s = .next s)
  ∧ (∀ (rail : UvRail) (s : State), s.phase ≠ .unpowered →
      ∃ t, exec (.supplyUvReset rail false) s = .next t
        ∧ ResetBy (match rail with | .vcore => .vcoreUv | .vnvm => .vnvmUv) s t ∧ t.pwr.pgood = false)
  ∧ ∀ s : State, s.phase ≠ .unpowered → s.pwr.vddioOk = true →
      ∃ t, exec .vddioUv s = .next t ∧ ResetBy .vddioUv { s with pwr := { s.pwr with vddioOk := false } } t
        ∧ t.pwr.vddioOk = false ∧ t.boot.nrstDrive = false

/-- BOOTH_ENABLE from the owner, for a booth 1 to 7 and a depth 1 to 8: a disabled booth becomes enabled with that
depth; an enabled booth takes the depth when it is at or above its present count, and the command is answered
ST_BAD_PARAM with nothing else changed otherwise. The depth in force is the one the next command meets: acceptance
tests it against the state at its own arrival. (R175.) -/
def Obligations.BoothEnableSetsModeAndDepth : Prop :=
  ∀ (p : Packet) (n : Booth) (d : Nat) (s : State), Serves op_boothEnable Needs.none p s →
    byteAt p.payload 0 = BitVec.ofNat 8 n.val → byteAt p.payload 1 = BitVec.ofNat 8 d → n ≠ 0 → 1 ≤ d → d ≤ 8 →
    ((s.booth n).mode = .disabled →
      exec (.boothEnable p) s = .next (replied p .ok [] (s.onBooth n fun x => { x with mode := .enabled, depth := d })))
    ∧ ((s.booth n).mode = .enabled → depthCount s n ≤ d →
      exec (.boothEnable p) s = .next (replied p .ok [] (s.onBooth n fun x => { x with depth := d })))
    ∧ ((s.booth n).mode = .enabled → d < depthCount s n → exec (.boothEnable p) s = .next (replied p .badParam [] s))
    ∧ ∀ q : Packet, Reaches q s → q.src.booth = n → refusalWaiting s n = false → tagOut s n q.tag = false →
        (s.booth n).depth ≤ depthCount s n → exec (.nop .nop q) s = .next (refuseBusy n q.tag 0x01 { s with hb := heardBus q.src s })

/-- BOOTH_DISABLE of an enabled booth 1 to 7 puts it into drain mode with its pending events and its in-band request
discarded and its GP outputs let go; its commands not yet started are answered ST_CANCELLED in the order of the service
table, and the reply gives how many they were and how many still run; for a booth that drains or is disabled it answers ST_OK with both counts 0, and
for booth 0 or a number above 7 ST_BAD_PARAM, with nothing else changed; BOOTH_ENABLE of a draining booth is
answered ST_NOT_READY. When a draining booth has nothing in flight and no reply waiting, its drain ends: it is
disabled with depth 0, no event pending or unmasked, no car or RDS subscription and no routine, no GP pin of its own
driven, its sample window and its level-1 table read 0, and EV_BOOTH_DRAINED is pending for booth 0. The GP pin that
enables the TCXO is no booth's output. (R57, R152, R153, R176, Table 8-3.) -/
def Obligations.BoothDisableDrainsAndEnds : Prop :=
  (∀ (p : Packet) (n : Booth) (s : State), Serves op_boothDisable Needs.none p s →
      byteAt p.payload 0 = BitVec.ofNat 8 n.val → n ≠ 0 → (s.booth n).mode = .enabled →
      (s.cmd.svc.filter fun x => x.booth = n).Pairwise (fun x y => x.tag ≠ y.tag) →
      s.keep.hash.cur ≠ none ∨ (s.keep.hash.queue = [] ∧ s.car.queue = []) →
      let waiting := s.cmd.svc.filter fun x => decide (x.booth = n) && isWaiting s n x.tag
      ∃ t, exec (.boothDisable p) s = .next t ∧ (t.booth n).mode = .draining ∧ (∀ g, (t.booth n).pend.get g = 0)
        ∧ t.hb.ibrReq.getLsbD n.val = false
        ∧ ReplyAdded p.src.booth p.tag .ok
            [BitVec.ofNat 8 waiting.length, BitVec.ofNat 8 (inFlight s n - waiting.length)] s t
        ∧ (t.booth n).replies = (s.booth n).replies
            ++ waiting.map (fun x => { tag := x.tag, status := .cancelled, payload := [], refusal := false })
        ∧ inFlight t n = inFlight s n - waiting.length
        ∧ ∀ k : Fin 4, (s.door.gp.get k).booth = some n → tcxoPin s ≠ some k → (t.door.pins.get (gpIdx k)).driven = false)
  ∧ (∀ (p : Packet) (n : Booth) (s : State), Serves op_boothDisable Needs.none p s →
      byteAt p.payload 0 = BitVec.ofNat 8 n.val → n ≠ 0 → (s.booth n).mode ≠ .enabled →
      exec (.boothDisable p) s = .next (replied p .ok [0, 0] s))
  ∧ (∀ (p : Packet) (s : State), Serves op_boothDisable Needs.none p s →
      byteAt p.payload 0 = 0 ∨ 8 ≤ (byteAt p.payload 0).toNat → exec (.boothDisable p) s = .next (replied p .badParam [] s))
  ∧ (∀ (p : Packet) (n : Booth) (s : State), Serves op_boothEnable Needs.none p s →
      byteAt p.payload 0 = BitVec.ofNat 8 n.val → n ≠ 0 → 1 ≤ (byteAt p.payload 1).toNat → (byteAt p.payload 1).toNat ≤ 8 →
      (s.booth n).mode = .draining → exec (.boothEnable p) s = .next (replied p .notReady [] s))
  ∧ ∀ (b : Booth) (s : State), (s.booth b).mode = .draining → inFlight s b = 0 → (s.booth b).replies = [] → b ≠ 0 →
      s.mem.wf = true → s.boot.loader = false → (s.booth 0).mode = .enabled → s.fm.hold = none →
      ∃ t, exec (.boothDrainEnd b) s = .next t ∧ (t.booth b).mode = .disabled ∧ (t.booth b).depth = 0
        ∧ (∀ g, (t.booth b).pend.get g = 0 ∧ (t.booth b).mask.get g = 0) ∧ (t.booth b).cars = 0 ∧ (t.booth b).rdsMask = 0
        ∧ (t.booth b).rtnState = .none_ ∧ (t.booth b).codeLen = 0 ∧ pends .boothDrained 0 t = true
        ∧ (∀ k : Fin 4, (s.door.gp.get k).booth = some b → tcxoPin s ≠ some k → (t.door.pins.get (gpIdx k)).driven = false)
        ∧ (∀ a, b.val * 4096 ≤ a → a < b.val * 4096 + 4096 → memGet t.jug.win a = 0)
        ∧ (∀ a, tableBase + b.val * 0x80 ≤ a → a < tableBase + b.val * 0x80 + 0x80 → memGet t.mem a = 0)
        ∧ ∀ a, ¬ (tableBase + b.val * 0x80 ≤ a ∧ a < tableBase + b.val * 0x80 + 0x80) → memGet t.mem a = memGet s.mem a

/-- CANCEL of a tag whose reply waits answers ST_OK with outcome 0 and changes nothing else; CANCEL of its own tag is
answered ST_BAD_PARAM; of a tag that is not outstanding ST_NO_TAG; of a running command that cannot be stopped ST_OK
with outcome 3, with nothing else changed. A waiting command ends with ST_CANCELLED, its reply placed before the
reply to CANCEL, whose outcome is 1, and it is in no queue any more; one operation that waits for the AES engine is
the case stated here. A running scan, FM measurement, DC_LISTEN window, routine, or transfer in back-off, with no other
command waiting for the radio or the bus, is stopped: its reply is ST_CANCELLED, placed before the reply to CANCEL, whose
outcome is 2; the scan's hold is as before it, the measured station stays held, the window is gone, the routine stays
loaded, the transfer is over. (R151, R280, Table 7-4.) -/
def Obligations.CancelFindsItsTarget : Prop :=
  ∀ (p : Packet) (back : CalRun) (t : Byte) (s : State), Serves op_cancel Needs.none p s → byteAt p.payload 0 = t →
    (t = p.tag → exec (.cancel p back) s = .next (replied p .badParam [] s))
    ∧ (t ≠ p.tag → (s.booth p.src.booth).replies.any (fun r => !r.refusal && r.tag == t) = true →
        exec (.cancel p back) s = .next (replied p .ok [0] s))
    ∧ (t ≠ p.tag → tagOut s p.src.booth t = false → exec (.cancel p back) s = .next (replied p .noTag [] s))
    ∧ (t ≠ p.tag → (s.booth p.src.booth).replies.any (fun r => !r.refusal && r.tag == t) = false →
        tagOut s p.src.booth t = true → isWaiting s p.src.booth t = false → stoppable s p.src.booth t = none →
        exec (.cancel p back) s = .next (replied p .ok [3] s))
    ∧ (t ≠ p.tag → (s.booth p.src.booth).replies.any (fun r => !r.refusal && r.tag == t) = false →
        tagOut s p.src.booth t = true → s.keep.aes.queue.any (Job.isOf p.src.booth t) = true →
        s.vd.intake.any (Cred.isOf p.src.booth t) = false →
        ∃ u, exec (.cancel p back) s = .next u
          ∧ (u.booth p.src.booth).replies = (s.booth p.src.booth).replies
              ++ [{ tag := t, status := .cancelled, payload := [], refusal := false }
                , { tag := p.tag, status := .ok, payload := [1], refusal := false }]
          ∧ u.keep.aes.queue = s.keep.aes.queue.filter (fun j => !Job.isOf p.src.booth t j)
          ∧ u.keep.aes.cur = s.keep.aes.cur ∧ u.nv = s.nv ∧ u.mem = s.mem)
    ∧ ∀ k : Stoppable, t ≠ p.tag → (s.booth p.src.booth).replies.any (fun r => !r.refusal && r.tag == t) = false →
        tagOut s p.src.booth t = true → isWaiting s p.src.booth t = false → stoppable s p.src.booth t = some k →
        s.fm.waiting = [] → s.rx.listens = [] → s.pb.queue = [] →
        ∃ u, exec (.cancel p back) s = .next u
          ∧ (u.booth p.src.booth).replies = (s.booth p.src.booth).replies
              ++ [{ tag := t, status := .cancelled, payload := [], refusal := false }
                , { tag := p.tag, status := .ok, payload := [2], refusal := false }]
          ∧ (k = .scan → u.fm.scan = none ∧ ∀ c, s.fm.scan = some c → u.fm.hold = c.prev)
          ∧ (k = .tune → u.fm.tune = none ∧ u.fm.hold = s.fm.hold)
          ∧ (k = .listen → u.rx.window = none)
          ∧ (k = .routine → u.jug.run = none ∧ (u.booth p.src.booth).rtnState = .loaded)
          ∧ (k = .transfer → u.pb.xfer = none)

/-- KEY_INFO of a slot its sender may use gives its type, owner, generation and flags and changes nothing else;
KEY_ERASE of a slot its sender may write, which no engine operation has snapped, empties exactly that slot, counts
its generation and answers it, with nothing else changed; a RETIRED device answers ST_LIFECYCLE, a slot number above
63 ST_BAD_PARAM, a slot not the sender's ST_PRIV. AUDIT_PUB gives the public key of the audit key, or ST_KEY_EMPTY.
(R166, R197, R199, R200, R201, Table 7-2, Table 10-3.) -/
def Obligations.KeySlotCommandsReadAndErase : Prop :=
  (∀ (p : Packet) (s : State), Serves op_keyInfo Needs.none p s → ∀ k : Nat, (byteAt p.payload 0).toNat = k →
    (64 ≤ k → exec (.keyInfo p) s = .next (replied p .badParam [] s))
    ∧ (k < 64 → mayUse s p.src.booth k = false → exec (.keyInfo p) s = .next (replied p .priv [] s))
    ∧ (k < 64 → mayUse s p.src.booth k = true → exec (.keyInfo p) s = .next (replied p .ok
        ([(keySlot s k).typ.code, BitVec.ofNat 8 (slotOwner s k).val] ++ leBytes 2 (keySlot s k).gen.toNat
          ++ [BitVec.ofNat 8 ((if k = 0 then 1 else 0) + 2 * bit (keySlot s k).fromCar
                + 4 * (if k = 0 ∨ k = 2 ∨ k = 3 ∨ k = 4 then 1 else 0)), 0, 0, 0]) s)))
  ∧ (∀ (p : Packet) (s : State), Serves op_keyErase Needs.none p s → ∀ k : Fin 64, (byteAt p.payload 0).toNat = k.val →
    (lifeCycle s = .retired → exec (.keyErase p) s = .next (replied p .lifecycle [] s))
    ∧ (lifeCycle s ≠ .retired → mayWrite s p.src.booth k.val = false → exec (.keyErase p) s = .next (replied p .priv [] s))
    ∧ (lifeCycle s ≠ .retired → mayWrite s p.src.booth k.val = true → s.keep.aes.cur = none → s.keep.hash.cur = none →
        exec (.keyErase p) s = .next (replied p .ok (leBytes 2 ((s.nv.keys.get k).gen + 1).toNat)
          (s.onNv fun n => { n with keys := n.keys.set k (erasedSlot (n.keys.get k)) }))))
  ∧ ∀ (p : Packet) (s : State), Serves op_auditPub Needs.none p s →
    ((keySlot s 4).typ = .empty → exec (.auditPub p) s = .next (replied p .keyEmpty [] s))
    ∧ ((keySlot s 4).typ ≠ .empty → exec (.auditPub p) s = .next (replied p .ok (edPublic (keySlot s 4).key) s))

/-- AES_CRYPT, CMAC_GEN, KEY_DERIVE, KEY_LOAD and RANDOM on the AES engine, SHA256, ED_VERIFY and ED_SIGN on the hash
and curve engine: with operands in range and slots the sender may use, the command stands in the service table
without a reply, and its operation runs at once on a free engine, its generation snapshots taken, or waits last in
line behind a busy one. Nothing else changes. (R145, R147, R193, R197, R198, R199, R201, R210, Table 7-2.) -/
def Obligations.EngineCommandsStartTheirOperation : Prop :=
  (∀ (p : Packet) (s : State), Serves op_aesCrypt Needs.none p s → (byteAt p.payload 0).toNat < 64 →
    (byteAt p.payload 1).toNat < 3 → byteAt p.payload 2 = 0 → byteAt p.payload 3 = 0 →
    mayUse s p.src.booth (byteAt p.payload 0).toNat = true →
    StartsOn (.aesCrypt p) .aes op_aesCrypt.op p
      (.aesCrypt (byteAt p.payload 0).toNat (byteAt p.payload 1).toNat (sub p.payload 4 16) (p.payload.drop 20)) s)
  ∧ (∀ (p : Packet) (s : State), Serves op_cmacGen Needs.none p s → (byteAt p.payload 0).toNat < 64 →
    (byteAt p.payload 1 = 8 ∨ byteAt p.payload 1 = 16) → byteAt p.payload 2 = 0 → byteAt p.payload 3 = 0 →
    mayUse s p.src.booth (byteAt p.payload 0).toNat = true →
    StartsOn (.cmacGen p) .aes op_cmacGen.op p
      (.cmac (byteAt p.payload 0).toNat (byteAt p.payload 1).toNat (p.payload.drop 4)) s)
  ∧ (∀ (p : Packet) (typ : KeyType) (s : State), Serves op_keyDerive Needs.none p s → lifeCycle s ≠ .retired →
    (byteAt p.payload 0).toNat < 64 → (byteAt p.payload 1).toNat < 64 → byteAt p.payload 0 ≠ byteAt p.payload 1 →
    byteAt p.payload 3 = 0 → loadableType (byteAt p.payload 2) = some typ →
    mayUse s p.src.booth (byteAt p.payload 0).toNat = true → mayWrite s p.src.booth (byteAt p.payload 1).toNat = true →
    StartsOn (.keyDerive p) .aes op_keyDerive.op p
      (.derive_ (byteAt p.payload 0).toNat (byteAt p.payload 1).toNat typ (p.payload.drop 4)) s)
  ∧ (∀ (p : Packet) (typ : KeyType) (s : State), Serves op_keyLoad Needs.none p s → lifeCycle s ≠ .retired →
    (byteAt p.payload 0).toNat < 64 → (byteAt p.payload 2).toNat < 64 → byteAt p.payload 3 = 0 →
    mayLoad s p.src.booth (byteAt p.payload 0).toNat = true → loadableType (byteAt p.payload 1) = some typ →
    (byteAt p.payload 0 = 1 → typ = .wrap256) → (p.payload.drop 4).length = typ.bytes + 8 →
    mayWrap s p.src.booth (byteAt p.payload 0).toNat (byteAt p.payload 2).toNat = true →
    StartsOn (.keyLoad p) .aes op_keyLoad.op p
      (.load (byteAt p.payload 0).toNat typ (byteAt p.payload 2).toNat (p.payload.drop 4)) s)
  ∧ (∀ (p : Packet) (s : State), Serves op_random Needs.none p s → s.keep.rngFailing = false →
    1 ≤ leField p.payload 0 2 → leField p.payload 0 2 ≤ 1024 →
    StartsOn (.random p) .aes op_random.op p (.random (leField p.payload 0 2)) s)
  ∧ (∀ (p : Packet) (s : State), Serves op_sha256 Needs.none p s →
    StartsOn (.sha256 p) .hash op_sha256.op p (.sha p.payload) s)
  ∧ (∀ (p : Packet) (s : State), Serves op_edVerify Needs.none p s →
    StartsOn (.edVerify p) .hash op_edVerify.op p
      (.edVerify (sub p.payload 0 32) (sub p.payload 32 64) (p.payload.drop 96)) s)
  ∧ ∀ (p : Packet) (s : State), Serves op_edSign Needs.none p s → (byteAt p.payload 0).toNat < 64 →
    byteAt p.payload 0 ≠ 4 → byteAt p.payload 1 = 0 → byteAt p.payload 2 = 0 → byteAt p.payload 3 = 0 →
    mayUse s p.src.booth (byteAt p.payload 0).toNat = true →
    StartsOn (.edSign p) .hash op_edSign.op p (.edSign (byteAt p.payload 0).toNat (p.payload.drop 4)) s

/-- When the operation an engine runs ends with its snapshots unchanged, its command is answered: AES_CRYPT and CMAC
with the result under the slot's key, KEY_LOAD with the new generation and the unwrapped key in its slot
(ST_AUTH_FAIL and no slot written where the unwrap fails), KEY_DERIVE with the derived key in its slot, SHA256 with
the digest, ED_VERIFY with ST_OK or ST_AUTH_FAIL, ED_SIGN with the signature. Where a snapshot no longer holds, the
answer is ST_KEY_STALE and no slot is written; a status of its first read is answered likewise; and a snapshot held
10 ms while LIMIT is 1 ends the operation with ST_KEY_STALE. The engine is free afterwards when nothing waits for
it, and the command has left the service table. The results of life-cycle commands and of a debug signature are stated
with their rules. (R147, R194, R196, R197, R200, R201, R202, R211, Table 10-2.) -/
def Obligations.EngineOperationsEndWithTheirResult : Prop :=
  ∀ (e : EngineId) (j : Job) (snap : List (Nat × Half)) (early : Option Status) (s : State),
    engineOf s e = { cur := some (.cmd j snap early), queue := [] } →
    s.keep.cpWanted = false → s.car.queue = [] →
    (∀ st, early = some st → ∃ t, exec (.engineOperationEnd e) s = .next t ∧ ReplyAdded j.booth j.tag st [] s t
        ∧ t.nv = s.nv ∧ engineOf t e = Engine.start)
    ∧ (early = none → (∃ x ∈ snap, (keySlot s x.1).gen ≠ x.2) →
        ∃ t, exec (.engineOperationEnd e) s = .next t ∧ ReplyAdded j.booth j.tag .keyStale [] s t ∧ t.nv = s.nv
          ∧ engineOf t e = Engine.start)
    ∧ (early = none → s.pwr.limit = true → snap ≠ [] →
        ∃ t, exec (.snapshotTimeout e) s = .next t ∧ ReplyAdded j.booth j.tag .keyStale [] s t ∧ t.nv = s.nv
          ∧ engineOf t e = Engine.start)
    ∧ (early = none → j.op.plain = true → (∀ x ∈ snap, (keySlot s x.1).gen = x.2) →
        ∃ t, exec (.engineOperationEnd e) s = .next t ∧ engineOf t e = Engine.start
          ∧ t.cmd.svc = s.cmd.svc.filter (fun x => !(x.booth = j.booth ∧ x.tag = j.tag))
          ∧ (match j.op with
            | .aesCrypt k mode ctr data =>
              ReplyAdded j.booth j.tag .ok (if mode = 0 then ecbEnc (keySlot s k).key data
                else if mode = 1 then ecbDec (keySlot s k).key data else ctrCrypt (keySlot s k).key ctr data) s t ∧ t.nv = s.nv
            | .cmac k len msg => ReplyAdded j.booth j.tag .ok ((cmac (keySlot s k).key msg).take len) s t ∧ t.nv = s.nv
            | .sha msg => ReplyAdded j.booth j.tag .ok (sha256 msg) s t ∧ t.nv = s.nv
            | .edVerify pk sig msg =>
              ReplyAdded j.booth j.tag (if edVerify pk sig msg = true then .ok else .authFail) [] s t ∧ t.nv = s.nv
            | .edSign k msg => ReplyAdded j.booth j.tag .ok (edSign (keySlot s k).key msg) s t ∧ t.nv = s.nv
            | .random n =>
              s.keep.rngFailing = false → ReplyAdded j.booth j.tag .ok ((List.range n).map (Config.randomByte s.keep.draws)) s t
                ∧ t.keep.draws = s.keep.draws + 1 ∧ t.nv = s.nv
            | .load k typ w blob =>
              k < 64 → (∀ key, keyUnwrap (keySlot s w).key blob = some key →
                  SlotWritten k typ key s t ∧ ReplyAdded j.booth j.tag .ok (leBytes 2 ((keySlot s k).gen + 1).toNat) s t)
                ∧ (keyUnwrap (keySlot s w).key blob = none → ReplyAdded j.booth j.tag .authFail [] s t ∧ t.nv = s.nv)
            | .derive_ i o typ ctx =>
              o < 64 → SlotWritten o typ (kdf (keySlot s i).key [0x42, 0x54, 0x48, BitVec.ofNat 8 j.booth.val] ctx typ.bytes) s t
                ∧ ReplyAdded j.booth j.tag .ok (leBytes 2 ((keySlot s o).gen + 1).toNat) s t
            | .provision => True
            | .lifeMove _ _ => True
            | .dbgSig _ _ => True))

/-- SPORE_READ answers kind, budget left, length and value of a cell (zeros while unwritten), and ST_PRIV for cells 32
to 95 from a booth 1 to 7. SPORE_WRITE of a new legal value into a budgeted cell, in a life-cycle state that allows
it, stores the value, uses one unit, answers what is left, raises EV_SPORE_WRITTEN and writes a log entry of kind
0x0B with cell and budget left; the value the cell holds is answered with its budget untouched, whether or not Table
10-4 allows it, and any other value it does not allow is answered ST_BAD_PARAM; a spent cell is answered
ST_SPORE_SPENT with its event. Every other cell keeps value and budget, and the keys, memory and door do
not change. SPORE_STEP of a cell 16 to 31 with steps left, not in RETIRED, raises its value by one in the same way
and answers it; a cell that is no step cell, or that no command may step, is answered ST_BAD_PARAM. (R205, R206,
R207, R208, R100, Table 10-4.) -/
def Obligations.SporeCellsAreReadAndSpent : Prop :=
  (∀ (p : Packet) (c : Nat) (s : State), Serves op_sporeRead Needs.none p s → (byteAt p.payload 0).toNat = c →
    (128 ≤ c → exec (.sporeRead p) s = .next (replied p .badParam [] s))
    ∧ (32 ≤ c → c ≤ 95 → p.src.booth ≠ 0 → exec (.sporeRead p) s = .next (replied p .priv [] s))
    ∧ (c < 128 → ¬ (32 ≤ c ∧ c ≤ 95 ∧ p.src.booth ≠ 0) → exec (.sporeRead p) s = .next (replied p .ok
        ([(match cellKind c with | .reserved => 0 | .step _ => 2 | .budgeted _ _ => 1), BitVec.ofNat 8 (cellLeft s c)
          , BitVec.ofNat 8 (cellValue s c).length, 0] ++ cellValue s c) s)))
  ∧ (∀ (p : Packet) (c len budget : Nat) (states : List LifeCycle) (s : State), Serves op_sporeWrite Needs.none p s →
    (byteAt p.payload 0).toNat = c → sub p.payload 1 3 = [0, 0, 0] → cellKind c = .budgeted len budget →
    cmdStates c = some states → states.contains (lifeCycle s) = true → (p.payload.drop 4).length = len →
    (p.payload.drop 4 = cellValue s c →
      exec (.sporeWrite p) s = .next (replied p .ok [BitVec.ofNat 8 (cellLeft s c)] s))
    ∧ (p.payload.drop 4 ≠ cellValue s c → valueOk c (p.payload.drop 4) = false →
      exec (.sporeWrite p) s = .next (replied p .badParam [] s))
    ∧ (p.payload.drop 4 ≠ cellValue s c → valueOk c (p.payload.drop 4) = true → cellLeft s c = 0 →
      ∃ t, exec (.sporeWrite p) s = .next t ∧ ReplyAdded p.src.booth p.tag .sporeSpent [] s t
        ∧ Raised (if c = 6 then .floorSpent else .sporeSpent) s t ∧ OnlyBus s t)
    ∧ (p.payload.drop 4 ≠ cellValue s c → valueOk c (p.payload.drop 4) = true → 0 < cellLeft s c → LogReady s →
      ∃ t, exec (.sporeWrite p) s = .next t
        ∧ ReplyAdded p.src.booth p.tag .ok [BitVec.ofNat 8 (cellLeft s c - 1)] s t
        ∧ cellValue t c = p.payload.drop 4 ∧ cellLeft t c = cellLeft s c - 1 ∧ cellWritten t c = true
        ∧ (∀ d, d ≠ c → cellValue t d = cellValue s d ∧ cellLeft t d = cellLeft s d)
        ∧ Raised .sporeWritten s t ∧ Logged 0x0B (srcBooth p.src.booth) [BitVec.ofNat 8 c, BitVec.ofNat 8 (cellLeft s c - 1)] s t
        ∧ t.nv.keys = s.nv.keys ∧ t.mem = s.mem ∧ t.door = s.door))
  ∧ ∀ (p : Packet) (c : Nat) (s : State), Serves op_sporeStep Needs.none p s → (byteAt p.payload 0).toNat = c →
      (¬ (16 ≤ c ∧ c ≤ 31) → exec (.sporeStep p) s = .next (replied p .badParam [] s))
      ∧ (16 ≤ c → c ≤ 31 → lifeCycle s = .retired → exec (.sporeStep p) s = .next (replied p .lifecycle [] s))
      ∧ (16 ≤ c → c ≤ 31 → lifeCycle s ≠ .retired → 0 < cellLeft s c → LogReady s → cellNat s c < 255 →
        ∃ t, exec (.sporeStep p) s = .next t ∧ ReplyAdded p.src.booth p.tag .ok [BitVec.ofNat 8 (cellNat s c + 1)] s t
          ∧ cellNat t c = cellNat s c + 1 ∧ cellLeft t c = cellLeft s c - 1
          ∧ (∀ d, d ≠ c → cellValue t d = cellValue s d ∧ cellLeft t d = cellLeft s d)
          ∧ Raised .sporeWritten s t
          ∧ Logged 0x0B (srcBooth p.src.booth) [BitVec.ofNat 8 c, BitVec.ofNat 8 (cellLeft s c - 1)] s t)

/-- RNG_FAIL in booting, running or hold-safe with samples on which a test fails, while none is failing, marks the
entropy source as failing, raises EV_RNG_FAIL and, with a free record slot, writes an error record of code 0x002 that
names the test; samples that pass change nothing; a RANDOM is answered ST_RNG_FAIL meanwhile. A test fails on samples
with 40 equal ones in a row, and on a window of up to 1024 samples whose first recurs more than 680 times. RNG_RETEST
whose 4096 samples pass clears it, instantiates the generator afresh and raises EV_RNG_OK; one that fails, or has
fewer, changes nothing. (R209, R210, Table 18-2.) -/
def Obligations.HealthTestsStopAndRestartTheRandomSource : Prop :=
  (∀ (samples : List Bool) (test : Nat) (s : State), failedTest samples = some test → (alive s = true ∨ s.phase = .booting) →
    s.boot.loader = false → s.keep.rngFailing = false → s.err.aValid = false →
    ∃ t, exec (.rngFail samples) s = .next t ∧ t.keep.rngFailing = true ∧ Raised .rngFail s t ∧ t.err.aValid = true
      ∧ t.err.recA.code = 0x002 ∧ t.err.recA.w2 = BitVec.ofNat 32 test ∧ t.phase = s.phase ∧ t.nv = s.nv
      ∧ t.door = s.door)
  ∧ (∀ (samples : List Bool) (s : State), failedTest samples = none → exec (.rngFail samples) s = .next s)
  ∧ (∀ (x : Bool) (before after : List Bool), failedTest (before ++ List.replicate 40 x ++ after) ≠ none)
  ∧ (∀ (x : Bool) (before w after : List Bool), w.length ≤ 1023 → 680 < w.count x → failedTest (before ++ x :: w ++ after) ≠ none)
  ∧ (∀ (p : Packet) (s : State), Serves op_random Needs.none p s → s.keep.rngFailing = true →
      1 ≤ leField p.payload 0 2 → leField p.payload 0 2 ≤ 1024 → exec (.random p) s = .next (replied p .rngFail [] s))
  ∧ (∀ (samples : List Bool) (s : State), 4096 ≤ samples.length → failedTest (samples.take 4096) = none →
      (alive s = true ∨ s.phase = .booting) → s.boot.loader = false → s.keep.rngFailing = true →
      ∃ t, exec (.rngRetest samples) s = .next t ∧ t.keep.rngFailing = false ∧ t.keep.drbgSeeds = s.keep.drbgSeeds + 1
        ∧ t.keep.drbgReqs = 0 ∧ Raised .rngOk s t ∧ t.nv = s.nv ∧ t.door = s.door)
  ∧ ∀ (samples : List Bool) (s : State), (samples.length < 4096 ∨ failedTest (samples.take 4096) ≠ none) →
      exec (.rngRetest samples) s = .next s

/-- A legal write by the owner: PWR_TRACK_CTRL takes MODE and FIX_LEVEL, and in FIXED mode VCORE goes to FIX_LEVEL;
PWR_BATT_CFG takes LOW, END and LOCK while it is not locked; HB_ADDR_CFG waits for the end of its transaction, which
applies it; HB_CFG takes its fields; PB_CFG and PB_OWNn take theirs; a 1 in PB_CTRL.CLEAR runs a bus clear that
enables the engine again when the bus is freed, and disables it with EV_PBUS_STUCK when it stays low. Every equation
gives the whole next state. (R30, R31, R70, R107, R108, R120, R127, R132, Table 2-2, Table 6-2, Table 6-4, Table
6-7.) -/
def Obligations.PowerAndBusRegistersTakeTheirFields : Prop :=
  (∀ (src : Src) (v : Word) (s : State), Writes src 0x200 s → bits v 0 2 < 2 → bits v 8 6 < 36 →
    exec (.pwrTrackCtrlWrite src v) s = .next ((regWritten src 0x200 s).onPwr fun p =>
      { p with trackCtrl := v &&& 0x3F03, level := if bits v 0 2 = 1 then bits v 8 6 else p.level }))
  ∧ (∀ (src : Src) (v : Word) (s : State), Writes src 0x210 s → s.pwr.battCfg.getLsbD 31 = false →
    (bits v 0 8 = 0 ∨ 85 ≤ bits v 0 8) → (bits v 8 8 = 0 ∨ 85 ≤ bits v 8 8) →
    (bits v 0 8 ≠ 0 → bits v 8 8 ≠ 0 → bits v 8 8 < bits v 0 8) →
    exec (.pwrBattCfgWrite src v) s = .next ((regWritten src 0x210 s).onPwr fun p => { p with battCfg := v &&& 0x8000FFFF }))
  ∧ (∀ (src : Src) (v : Word) (s : State), Writes src 0x304 s → s.hb.addrCfg.getLsbD 31 = false → bits v 0 2 ≠ 3 →
    Nat.land (bits v 16 3) (bits v 8 3) = 0 → cfgAnswersReserved s v = false →
    exec (.hbAddrCfgWrite src v) s = .next ((regWritten src 0x304 s).onHb fun h => { h with addrPend := some (v &&& 0x807F0703) }))
  ∧ (∀ (v : Word) (s : State), s.hb.addrPend = some v →
    exec .hbAddrCfgApply s = .next (s.onHb fun h => { h with addrCfg := v, addrPend := none }))
  ∧ (∀ s : State, s.hb.addrPend = none → exec .hbAddrCfgApply s = .next s)
  ∧ (∀ (src : Src) (v : Word) (s : State), Writes src 0x308 s → bits v 16 8 ≠ 0 →
    ∃ t, exec (.hbCfgWrite src v) s = .next t ∧ t.hb.cfg = v &&& 0x00FF011F ∧ OnlyBus s t ∧ t.cmd = s.cmd
      ∧ t.hb.addrCfg = s.hb.addrCfg ∧ t.hb.ack = true)
  ∧ (∀ (src : Src) (v : Word) (s : State), Writes src 0x320 s → bits v 0 2 ≠ 3 → bits v 16 8 ≠ 0 →
    exec (.pbCfgWrite src v) s = .next ((regWritten src 0x320 s).onPb fun p => { p with cfg := v &&& 0x00FF03F3 }))
  ∧ (∀ (src : Src) (n : Fin 8) (v : Word) (s : State), Writes src (0x340 + 4 * n.val) s →
    (v.getLsbD 15 = true → bits v 0 7 ≠ 0x3C ∧ 8 ≤ bits v 0 7 ∧ bits v 0 7 < 0x78) →
    exec (.pbOwnWrite src n v) s
      = .next ((regWritten src (0x340 + 4 * n.val) s).onPb fun p => { p with own := p.own.set n (v &&& 0x0000877F) }))
  ∧ (∀ (src : Src) (v : Word) (s : State), Writes src 0x328 s → v.getLsbD 0 = true →
    exec (.pbClear src v .freed) s = .next ((regWritten src 0x328 s).onPb fun p => { p with disabled := false })
    ∧ ∃ t, exec (.pbClear src v .stuck) s = .next t ∧ t.pb = { s.pb with disabled := true } ∧ Raised .pbusStuck s t
      ∧ t = { s with hb := t.hb, cmd := t.cmd, pb := t.pb })

/-- EVR_ROUTEg takes its booth bits with booth 0's always 1; EVR_SIG its nibbles; BTH_SLOTSn_LO and _HI give a booth 1
to 7 the slots named, none of 0 to 7, when no other booth 1 to 7 has one of them; a write of BTH_EV_PENDg clears the
written bits, while a bit set at the same moment stays set; BTH_EV_MASKg takes the bits of its group's sources. The
registers of other booths, and everything beyond the host bus and the booths, do not change. (R157, R161, R164,
R165, R166, R370, Table 8-3, Table 8-6.) -/
def Obligations.BoothControlRegistersTakeTheirFields : Prop :=
  (∀ (src : Src) (g : Fin 17) (v : Word) (s : State), Writes src (0x400 + 4 * g.val) s →
    exec (.evrRouteWrite src g v) s
      = .next ((regWritten src (0x400 + 4 * g.val) s).onCmd fun c => { c with route := c.route.set g (v.truncate 8 ||| 1) }))
  ∧ (∀ (src : Src) (v : Word) (s : State), Writes src 0x450 s →
    ∃ t, exec (.evrSigWrite src v) s = .next t ∧ t.cmd = { s.cmd with sig := v &&& 0x77777777 } ∧ OnlyBus s t ∧ t.hb.ack = true)
  ∧ (∀ (src : Src) (b : Booth) (hi : Bool) (v : Word) (s : State), Writes src (0x468 + 8 * b.val + 4 * bit hi) s → b ≠ 0 →
    (∀ o : Booth, o ≠ 0 → o ≠ b →
      (s.booth o).slots &&& (if hi then v.zeroExtend 64 <<< 32 else (v &&& 0xFFFFFF00).zeroExtend 64) = 0) →
    exec (.bthSlotsWrite src b hi v) s = .next ((regWritten src (0x468 + 8 * b.val + 4 * bit hi) s).onBooth b fun x =>
      { x with slots := (x.slots &&& (if hi then 0x00000000FFFFFFFF else 0xFFFFFFFF00000000))
          ||| (if hi then v.zeroExtend 64 <<< 32 else (v &&& 0xFFFFFF00).zeroExtend 64) }))
  ∧ (∀ (src : Src) (g : Fin 17) (v same : Word) (s : State), Writes src (0x40 + 4 * g.val) s →
    ∃ t, exec (.evPendClear src g v same) s = .next t ∧ OnlyBus s t ∧ t.hb.ack = true
      ∧ (t.booth src.booth).pend.get g = ((s.booth src.booth).pend.get g &&& ~~~ v) ||| (same &&& evBits g.val)
      ∧ (∀ h, h ≠ g → (t.booth src.booth).pend.get h = (s.booth src.booth).pend.get h)
      ∧ (t.booth src.booth).mask = (s.booth src.booth).mask ∧ (t.booth src.booth).replies = (s.booth src.booth).replies
      ∧ (∀ b, b ≠ src.booth → t.booth b = s.booth b) ∧ t.cmd.svc = s.cmd.svc)
  ∧ ∀ (src : Src) (g : Fin 17) (v : Word) (s : State), Writes src (0x90 + 4 * g.val) s →
    ∃ t, exec (.evMaskWrite src g v) s = .next t ∧ OnlyBus s t ∧ t.hb.ack = true
      ∧ (t.booth src.booth).mask.get g = v &&& evBits g.val
      ∧ (∀ h, h ≠ g → (t.booth src.booth).mask.get h = (s.booth src.booth).mask.get h)
      ∧ (t.booth src.booth).pend = (s.booth src.booth).pend
      ∧ (∀ b, b ≠ src.booth → t.booth b = s.booth b) ∧ t.cmd.svc = s.cmd.svc

/-- DOOR_TIMING, DOOR_MOTOR_CFG, FRD_FM_SHIFT and JUG_RTN_CFG take their fields and nothing else changes; DOOR_IN_CFG
while not locked takes its fields, and the tamper polarity goes to the always-on domain: with the polarities kept
nothing else changes, and a changed one turns the assertion of its input round, latching a tamper assertion that
begins so; DOOR_LED_CFG in mode 0 or 1 acts at once while the device runs; FRD_DET_CFG that keeps the tap takes its
fields, and one that changes it restarts the three detectors; a 1 in FRD_CTRL.RESTART restarts the peak. The three
registers read the detectors' values, and a restarted detector reads 0. A sample that reaches the detectors makes the
peak the larger of it and the sample's magnitude, moves the envelope toward the magnitude by the difference over
2^ENV_TC, and ends an RMS block of 256 samples (64 in fast-settle) with its root mean square. A frond keeps back every second sample; its
output lies within 32767 of 0, and on the FM path it is the sum over 2^SHIFT rounded down where that fits. DOOR_OUT_CFG while not locked takes its
fields during a latch sequence without touching the pins; with LOCK it also saves the door record. (R168, R170,
R171, R172, R234, R260, R263, R267, R268, R55, Table 8-8, Table 8-9.) -/
def Obligations.DoorAndChainRegistersTakeTheirFields : Prop :=
  (∀ (src : Src) (v : Word) (s : State), Writes src 0x710 s → 5 ≤ bits v 0 8 → bits v 0 8 ≤ 100 → bits v 8 8 ≠ 0 →
    10 ≤ bits v 16 8 →
    exec (.doorTimingWrite src v) s = .next ((regWritten src 0x710 s).onDoor fun d => { d with timing := v &&& 0x00FFFFFF }))
  ∧ (∀ (src : Src) (v : Word) (s : State), Writes src 0x714 s → bits v 0 12 ≤ 1200 →
    exec (.doorMotorCfgWrite src v) s = .next ((regWritten src 0x714 s).onDoor fun d => { d with motor := v &&& 0x00FF0FFF }))
  ∧ (∀ (src : Src) (v : Word) (s : State), Writes src 0x70C s → s.door.inCfg.getLsbD 31 = false →
    v.getLsbD 2 = s.ao.tamperLow → v.getLsbD 3 = s.door.inCfg.getLsbD 3 →
    exec (.doorInCfgWrite src v) s = .next ((regWritten src 0x70C s).onDoor fun d => { d with inCfg := v &&& 0x8000FF0F }))
  ∧ (∀ (src : Src) (v : Word) (s : State), Writes src 0x70C s → s.door.inCfg.getLsbD 31 = false →
    ∃ t, exec (.doorInCfgWrite src v) s = .next t ∧ t.door.inCfg = v &&& 0x8000FF0F ∧ t.ao.tamperLow = v.getLsbD 2
      ∧ t.door.tamperIn = (s.door.tamperIn != (v.getLsbD 2 != s.ao.tamperLow))
      ∧ t.door.credWake = (s.door.credWake != (v.getLsbD 3 != s.door.inCfg.getLsbD 3))
      ∧ (v.getLsbD 2 ≠ s.ao.tamperLow → s.door.tamperIn = false → alive s = true → Raised .tamper s t))
  ∧ (∀ (src : Src) (v : Word) (s : State), Writes src 0x71C s → bits v 0 2 < 2 → bits v 8 8 ≠ 0 → bits v 16 8 ≠ 0 →
    bits v 8 8 < 10 * bits v 16 8 → s.phase = .running →
    exec (.doorLedCfgWrite src v) s = .next ((regWritten src 0x71C s).onDoor fun d =>
      { d with ledCfg := v &&& 0x00FFFF03, ledCur := v &&& 0x00FFFF03, ledOn := decide (bits v 0 2 = 1) }))
  ∧ (∀ (src : Src) (v : Word) (s : State), Writes src 0x604 s →
    exec (.frdFmShiftWrite src v) s = .next ((regWritten src 0x604 s).onJug fun j => { j with fmShift := v &&& 0x3FFF }))
  ∧ (∀ (src : Src) (v : Word) (s : State), Writes src 0x600 s → bits v 0 3 ≠ 0 →
    exec (.frdDetCfgWrite src v) s = .next ((regWritten src 0x600 s).onJug fun j =>
      if bits v 0 3 = bits s.jug.detCfg 0 3 then { j with detCfg := v &&& 0xF07 }
      else { j with detCfg := v &&& 0xF07, det := { peak := 0, rms := 0, env := 0, sum := 0, count := 0 } }))
  ∧ (∀ (src : Src) (v : Word) (s : State), Writes src 0x614 s →
    exec (.frdRestart src v) s = .next (if v.getLsbD 0 = true
      then (regWritten src 0x614 s).onJug fun j => { j with det := { j.det with peak := 0 } }
      else regWritten src 0x614 s))
  ∧ (∀ s : State, highWord s 0x608 = BitVec.ofNat 32 s.jug.det.peak ∧ highWord s 0x60C = BitVec.ofNat 32 s.jug.det.rms
    ∧ highWord s 0x610 = BitVec.ofNat 32 s.jug.det.env.toNat)
  ∧ (∀ (path : ChainPath) (tc : Nat) (x : Sample) (d : Det),
    (detect path tc x d).peak = max d.peak (magnitude x)
    ∧ (detect path tc x d).env = d.env + ((magnitude x : Int) - d.env) / 2 ^ tc
    ∧ (path ≠ .fast → d.count = 255 → (detect path tc x d).rms = rootMean (d.sum + power x) 256)
    ∧ (path = .fast → d.count = 63 → (detect path tc x d).rms = rootMean (d.sum + power x) 64))
  ∧ (∀ (h : List Int) (shift : Nat) (x : Sample) (f : Frond),
    (f.skip = true → ∃ g, frondStep h (convFloor shift) x f = (g, none) ∧ g.skip = false ∧ g.line = (x :: f.line).take h.length)
    ∧ (f.skip = false → ∃ g y sat, frondStep h (convFloor shift) x f = (g, some (y, sat)) ∧ g.skip = true
      ∧ -32767 ≤ y.1 ∧ y.1 ≤ 32767 ∧ -32767 ≤ y.2 ∧ y.2 ≤ 32767
      ∧ let v := firSum h (((x :: f.line).take h.length).map (·.1)) / 2 ^ (Config.tapBits + shift)
        (-32767 ≤ v → v ≤ 32767 → y.1 = v)))
  ∧ (∀ (src : Src) (v : Word) (s : State), Writes src 0x624 s → bits v 0 8 ≠ 0 →
    exec (.jugRtnCfgWrite src v) s = .next ((regWritten src 0x624 s).onJug fun j => { j with rtnCfg := v &&& 0xFFFF }))
  ∧ (∀ (src : Src) (v : Word) (s : State), Writes src 0x704 s → s.door.outCfg.getLsbD 31 = false → s.door.latch ≠ .idle →
    v.getLsbD 31 = false →
    exec (.doorOutCfgWrite src v) s = .next ((regWritten src 0x704 s).onDoor fun d => { d with outCfg := v &&& 0x80000007 }))
  ∧ ∀ (src : Src) (v : Word) (s : State), Writes src 0x704 s → s.door.outCfg.getLsbD 31 = false →
    ∃ t, exec (.doorOutCfgLock src v) s = .next t ∧ t.door.outCfg = (v &&& 0x80000007) ||| 0x80000000
      ∧ t.nv = { s.nv with doorRec := some { idle := v.truncate 3, inCfg := s.door.inCfg.truncate 16, timing := s.door.timing, motor := s.door.motor } }
      ∧ t.door.timing = s.door.timing ∧ t.door.motor = s.door.motor ∧ t.door.inCfg = s.door.inCfg
      ∧ t.door.latch = s.door.latch ∧ t.door.rest = s.door.rest

/-- For each register whose chapter names reserved encodings, a write by the owner of one of them raises EV_REG_REJECT
for booth 0 and every booth it is routed to, is acknowledged, and changes nothing else: the register keeps its
value, and nothing beyond the selection, pending events and in-band requests differs. While its LOCK bit is 1, a
write by the owner of PWR_BATT_CFG, HB_ADDR_CFG, DOOR_OUT_CFG (LOCK written again included) or DOOR_IN_CFG is
acknowledged, raises no event and changes nothing but the selection. (R8, R9, R31, R64, R70, R108, R120, R127, R166,
R171, R172, R253.) -/
def Obligations.ReservedAndLockedWritesAreDiscarded : Prop :=
  (
  ∀ (i : Instr) (src : Src) (a : Nat) (s : State), Writes src a s →
    (∃ v : Word,
      (i = .pwrTrackCtrlWrite src v ∧ a = 0x200 ∧ (2 ≤ bits v 0 2 ∨ 36 ≤ bits v 8 6))
      ∨ (i = .pwrBattCfgWrite src v ∧ a = 0x210 ∧ s.pwr.battCfg.getLsbD 31 = false
          ∧ ((1 ≤ bits v 0 8 ∧ bits v 0 8 ≤ 84) ∨ (1 ≤ bits v 8 8 ∧ bits v 8 8 ≤ 84)
            ∨ (bits v 0 8 ≠ 0 ∧ bits v 8 8 ≠ 0 ∧ bits v 0 8 ≤ bits v 8 8)))
      ∨ (i = .pwrTcxoCfgWrite src v ∧ a = 0x214 ∧ 5 ≤ bits v 0 3 ∧ bits v 0 3 ≠ bits s.pwr.tcxoCfg 0 3)
      ∨ (i = .hbAddrCfgWrite src v ∧ a = 0x304 ∧ s.hb.addrCfg.getLsbD 31 = false
          ∧ (bits v 0 2 = 3 ∨ Nat.land (bits v 16 3) (bits v 8 3) ≠ 0 ∨ cfgAnswersReserved s v = true))
      ∨ (i = .hbCfgWrite src v ∧ a = 0x308 ∧ bits v 16 8 = 0)
      ∨ (i = .pbCfgWrite src v ∧ a = 0x320 ∧ (bits v 0 2 = 3 ∨ bits v 16 8 = 0))
      ∨ (∃ n, i = .pbOwnWrite src n v ∧ a = 0x340 + 4 * n.val ∧ v.getLsbD 15 = true
          ∧ (bits v 0 7 = 0x3C ∨ bits v 0 7 < 8 ∨ 0x78 ≤ bits v 0 7))
      ∨ (∃ b hi, i = .bthSlotsWrite src b hi v ∧ a = 0x468 + 8 * b.val + 4 * bit hi ∧ b ≠ 0 ∧ ∃ o : Booth, o ≠ 0 ∧ o ≠ b
          ∧ (s.booth o).slots &&& (if hi then v.zeroExtend 64 <<< 32 else (v &&& 0xFFFFFF00).zeroExtend 64) ≠ 0)
      ∨ (i = .synClk1CfgWrite src v ∧ a = 0x504
          ∧ (6 ≤ bits v 4 3 ∨ (v.getLsbD 0 = true ∧ (bits v 16 16 < 1000 ∨ 50000 < bits v 16 16))))
      ∨ (i = .frdDetCfgWrite src v ∧ a = 0x600 ∧ bits v 0 3 = 0)
      ∨ (i = .jugRtnCfgWrite src v ∧ a = 0x624 ∧ bits v 0 8 = 0)
      ∨ (i = .doorTimingWrite src v ∧ a = 0x710
          ∧ (bits v 0 8 < 5 ∨ 100 < bits v 0 8 ∨ bits v 8 8 = 0 ∨ bits v 16 8 < 10))
      ∨ (i = .doorMotorCfgWrite src v ∧ a = 0x714 ∧ 1200 < bits v 0 12)
      ∨ (i = .doorLedCfgWrite src v ∧ a = 0x71C
          ∧ (bits v 0 2 = 3 ∨ bits v 8 8 = 0 ∨ bits v 16 8 = 0 ∨ 10 * bits v 16 8 ≤ bits v 8 8))) →
    ∃ t, exec i s = .next t ∧ Raised .regReject s t ∧ OnlyBus s t ∧ t.hb = { heardWrite src a s with ibrReq := t.hb.ibrReq }
      ∧ t.cmd = { s.cmd with booths := t.cmd.booths } ∧ ∀ b, t.booth b = { s.booth b with pend := (t.booth b).pend })
  ∧
  (
  ∀ (src : Src) (v : Word) (s : State),
    (Writes src 0x210 s → s.pwr.battCfg.getLsbD 31 = true → exec (.pwrBattCfgWrite src v) s = .next (regWritten src 0x210 s))
    ∧ (Writes src 0x304 s → s.hb.addrCfg.getLsbD 31 = true → exec (.hbAddrCfgWrite src v) s = .next (regWritten src 0x304 s))
    ∧ (Writes src 0x704 s → s.door.outCfg.getLsbD 31 = true →
        exec (.doorOutCfgWrite src v) s = .next (regWritten src 0x704 s) ∧ exec (.doorOutCfgLock src v) s = .next (regWritten src 0x704 s))
    ∧ (Writes src 0x70C s → s.door.inCfg.getLsbD 31 = true → exec (.doorInCfgWrite src v) s = .next (regWritten src 0x70C s)))

/-- REG_WRITE at an aligned address below 0x1000: at the address of a register it does what that register's own write
does, a 1 in CLEAR of PB_CTRL included; RX_COEX_CFG, which has no write of its own, takes its fields, and COEX_EN 0
holds its requests low; through the alias of the owner's window it does what the same write to the window does; at an
address with no writable register, read-only or unassigned, it is acknowledged and changes nothing but the selection;
an address that is not aligned, or not
below 0x1000, is not acknowledged; and a booth 1 to 7 that reaches outside its window is not acknowledged, changes
nothing, and raises EV_BOOTH_PRIV for itself and booth 0. (R7, R9, R114, R115, R155, R159, R160.) -/
def Obligations.RegisterPortReachesTheMap : Prop :=
  (∀ (src : Src) (v : Word) (c : ClearResult) (s : State),
    exec (.regWrite src 0x200 v c) s = exec (.pwrTrackCtrlWrite src v) s
    ∧ exec (.regWrite src 0x210 v c) s = exec (.pwrBattCfgWrite src v) s
    ∧ exec (.regWrite src 0x214 v c) s = exec (.pwrTcxoCfgWrite src v) s
    ∧ exec (.regWrite src 0x220 v c) s = exec (.gateRequest src v) s
    ∧ exec (.regWrite src 0x220 v c) s = exec (.gateWithdraw src v) s
    ∧ exec (.regWrite src 0x304 v c) s = exec (.hbAddrCfgWrite src v) s
    ∧ exec (.regWrite src 0x308 v c) s = exec (.hbCfgWrite src v) s
    ∧ exec (.regWrite src 0x320 v c) s = exec (.pbCfgWrite src v) s
    ∧ exec (.regWrite src 0x328 v c) s = exec (.pbClear src v c) s
    ∧ exec (.regWrite src 0x450 v c) s = exec (.evrSigWrite src v) s
    ∧ exec (.regWrite src 0x500 v c) s = exec (.synClk0CfgWrite src v) s
    ∧ exec (.regWrite src 0x504 v c) s = exec (.synClk1CfgWrite src v) s
    ∧ exec (.regWrite src 0x600 v c) s = exec (.frdDetCfgWrite src v) s
    ∧ exec (.regWrite src 0x604 v c) s = exec (.frdFmShiftWrite src v) s
    ∧ exec (.regWrite src 0x614 v c) s = exec (.frdRestart src v) s
    ∧ exec (.regWrite src 0x624 v c) s = exec (.jugRtnCfgWrite src v) s
    ∧ exec (.regWrite src 0x704 v c) s = exec (.doorOutCfgWrite src v) s
    ∧ (v.getLsbD 31 = true → exec (.regWrite src 0x704 v c) s = exec (.doorOutCfgLock src v) s)
    ∧ exec (.regWrite src 0x70C v c) s = exec (.doorInCfgWrite src v) s
    ∧ exec (.regWrite src 0x710 v c) s = exec (.doorTimingWrite src v) s
    ∧ exec (.regWrite src 0x714 v c) s = exec (.doorMotorCfgWrite src v) s
    ∧ exec (.regWrite src 0x71C v c) s = exec (.doorLedCfgWrite src v) s
    ∧ exec (.regWrite src 0x748 v c) s = exec (.errAck src v) s
    ∧ (v.getLsbD 8 = true → exec (.regWrite src 0x748 v c) s = exec (.holdExit src v) s)
    ∧ (∀ n : Fin 8, exec (.regWrite src (BitVec.ofNat 16 (0x340 + 4 * n.val)) v c) s = exec (.pbOwnWrite src n v) s)
    ∧ (∀ g : Fin 17, exec (.regWrite src (BitVec.ofNat 16 (0x400 + 4 * g.val)) v c) s = exec (.evrRouteWrite src g v) s)
    ∧ (∀ (b : Booth) (hi : Bool), b ≠ 0 →
        exec (.regWrite src (BitVec.ofNat 16 (0x468 + 8 * b.val + 4 * bit hi)) v c) s = exec (.bthSlotsWrite src b hi v) s)
    ∧ (∀ g : Fin 17, exec (.regWrite src (BitVec.ofNat 16 (0x40 + 4 * g.val)) v c) s = exec (.evPendClear src g v 0) s)
    ∧ (∀ g : Fin 17, exec (.regWrite src (BitVec.ofNat 16 (0x90 + 4 * g.val)) v c) s = exec (.evMaskWrite src g v) s))
  ∧ (∀ (src : Src) (v : Word) (c : ClearResult) (s : State), Writes src 0x518 s → s.rx.mode ≠ .datacast → s.rx.mode ≠ .fm →
      exec (.regWrite src 0x518 v c) s = .next ((regWritten src 0x518 s).onRx fun r =>
        { r with coexCfg := v &&& 0x333, coexReq := r.coexReq && v.getLsbD 0, coexPri := r.coexPri && v.getLsbD 0 }))
  ∧ (∀ (src : Src) (o : Nat) (v : Word) (c : ClearResult) (s : State), src.booth = 0 → o < 0x100 → o % 4 = 0 → Writes src o s →
      ∃ t u, exec (.regWrite src (BitVec.ofNat 16 (0x800 + o)) v c) s = .next t ∧ exec (.regWrite src (BitVec.ofNat 16 o) v c) s = .next u
        ∧ t.cmd = u.cmd ∧ t.hb.ack = true ∧ t = { u with hb := t.hb })
  ∧ (∀ (src : Src) (a : Half) (v : Word) (c : ClearResult) (s : State), Writes src a.toNat s → a.toNat % 4 = 0 → a.toNat < 0x1000 →
      writable a.toNat = false → exec (.regWrite src a v c) s = .next (regWritten src a.toNat s))
  ∧ (∀ (src : Src) (a : Half) (v : Word) (c : ClearResult) (s : State), busAnswers s src true = true → s.hb.asleep = false →
      ¬ (a.toNat % 4 = 0 ∧ a.toNat < 0x1000) →
      exec (.regWrite src a v c) s = .next (s.onHb fun h => { h with ibrQuiet := quietAfter src s, out := [], ack := false }))
  ∧ ∀ (src : Src) (a : Half) (v : Word) (c : ClearResult) (s : State), busAnswers s src true = true → s.hb.asleep = false →
      s.boot.loader = false → src.booth ≠ 0 → (s.booth src.booth).mode = .enabled → (s.booth 0).mode = .enabled →
      a.toNat % 4 = 0 → 0x100 ≤ a.toNat → a.toNat < 0x1000 →
      ∃ t, exec (.regWrite src a v c) s = .next t ∧ OnlyBus s t ∧ t.hb.ack = false ∧ pends .boothPriv src.booth t = true
        ∧ pends .boothPriv 0 t = true ∧ t.cmd = { s.cmd with booths := t.cmd.booths }
        ∧ ∀ b, t.booth b = { s.booth b with pend := (t.booth b).pend }

/-- ERR_ACK outside hold-safe clears VALID of the slots named, keeps the records' content, and changes nothing else; a
HOLD_EXIT outside hold-safe does only that. In hold-safe, HOLD_EXIT with a record still valid after the
acknowledgements of the same write raises EV_REG_REJECT and the device stays in hold-safe; with none, the device is
running again, EV_HOLD_EXIT is raised and movements may start. With VDDIO present, EVT0_N and EVT1_N are low in
hold-safe, follow the routed signals in running (low when a booth whose nibble has the pin's bit signals, else
high-impedance) and are high-impedance in reset and booting; LOCKDET is low in hold-safe, and in running its density is 0
while the synthesiser is stopped. (R60, R255, R374, R378, R380, R382, Table 3-6, Table 18-3.) -/
def Obligations.ErrorAcknowledgeAndHoldExit : Prop :=
  (∀ (k : Fin 2) (s : State), s.pwr.vddioOk = true →
    (s.phase = .holdSafe → pinNow (.evt k) s = .low ∧ pinNow .lockdet s = .low)
    ∧ (s.phase = .running → (∃ b, (sigOf s b).testBit k.val = true ∧ anySignal (s.booth b) = true) → pinNow (.evt k) s = .low)
    ∧ (s.phase = .running → (∀ b, (sigOf s b).testBit k.val = true → anySignal (s.booth b) = false) → pinNow (.evt k) s = .z)
    ∧ (s.phase = .reset ∨ s.phase = .booting → pinNow (.evt k) s = .z)
    ∧ (s.phase = .running → s.rx.synOn = false → pinNow .lockdet s = .density 0))
  ∧ (∀ (src : Src) (v : Word) (s : State), Writes src 0x748 s → s.phase ≠ .holdSafe →
    exec (.errAck src v) s = .next ((regWritten src 0x748 s).onErr fun e =>
      { e with aValid := e.aValid && !v.getLsbD 0, bValid := e.bValid && !v.getLsbD 1 })
    ∧ exec (.holdExit src v) s = .next ((regWritten src 0x748 s).onErr fun e =>
      { e with aValid := e.aValid && !v.getLsbD 0, bValid := e.bValid && !v.getLsbD 1 }))
  ∧ ∀ (src : Src) (v : Word) (s : State), Writes src 0x748 s → s.phase = .holdSafe →
    ((s.err.aValid && !v.getLsbD 0) = true ∨ (s.err.bValid && !v.getLsbD 1) = true →
      ∃ t, exec (.holdExit src v) s = .next t ∧ t.phase = .holdSafe ∧ Raised .regReject s t
        ∧ t.err.aValid = (s.err.aValid && !v.getLsbD 0) ∧ t.err.bValid = (s.err.bValid && !v.getLsbD 1) ∧ t.vd = s.vd
        ∧ t.door = s.door)
    ∧ ((s.err.aValid && !v.getLsbD 0) = false → (s.err.bValid && !v.getLsbD 1) = false →
      ∃ t, exec (.holdExit src v) s = .next t ∧ t.phase = .running ∧ Raised .holdExit s t ∧ t.err.aValid = false
        ∧ t.err.bValid = false ∧ t.vd.noMove = false ∧ t.nv = s.nv ∧ t.mem = s.mem)

/-- SYN_CLK0_CFG and a legal SYN_CLK1_CFG take their fields, and CLKOUT0 runs afterwards when it is enabled, the
reference is not lost and its block is not held off; CLKOUT1 is low after a write that disables it and after one that
changes its setting, and with CLKOUT1 enabled the ratio of its divider is the DCO frequency of the last retune over
FREQ_KHZ; PWR_TCXO_CFG that keeps its pin takes its fields. GATE_REQUEST
and GATE_WITHDRAW set PWR_GATE_REQ to the written word; outside a lease a newly requested block is gated at once,
and requests for blocks under a lease wait in GATE_PEND. (R64, R74, R77, R251, R253, Table 4-2, Table 4-7.) -/
def Obligations.ClockOutputAndGateWritesTakeEffect : Prop :=
  (∀ (src : Src) (v : Word) (s : State), Writes src 0x500 s →
    ∃ t, exec (.synClk0CfgWrite src v) s = .next t ∧ t.rx.clk0 = v &&& 7
      ∧ (v.getLsbD 0 = true → s.rx.refLost = false → (heldOff s).getLsbD 7 = false → t.rx.clk0On = true)
      ∧ (v.getLsbD 0 = false → t.rx.clk0On = false) ∧ t.rx.mode = s.rx.mode ∧ t.nv = s.nv ∧ t.mem = s.mem)
  ∧ (∀ (src : Src) (v : Word) (s : State), Writes src 0x504 s → bits v 4 3 < 6 →
    (v.getLsbD 0 = true → 1000 ≤ bits v 16 16 ∧ bits v 16 16 ≤ 50000) →
    ∃ t, exec (.synClk1CfgWrite src v) s = .next t ∧ t.rx.clk1 = v &&& 0xFFFF0073
      ∧ (v.getLsbD 0 = false → t.rx.clk1On = false) ∧ (v &&& 0xFFFF0073 ≠ s.rx.clk1 → t.rx.clk1On = false)
      ∧ (∀ x, s.rx.fcw = some x → v.getLsbD 0 = true → t.rx.clk1Ratio = clk1RatioOf x.1 (bits v 16 16))
      ∧ t.rx.mode = s.rx.mode ∧ t.nv = s.nv ∧ t.mem = s.mem)
  ∧ (∀ (src : Src) (v : Word) (s : State), Writes src 0x214 s → bits v 0 3 = bits s.pwr.tcxoCfg 0 3 →
    ∃ t, exec (.pwrTcxoCfgWrite src v) s = .next t ∧ t.pwr.tcxoCfg = v &&& 0xF07 ∧ t.door.gp = s.door.gp ∧ t.nv = s.nv
      ∧ t.rx = s.rx)
  ∧ ∀ (i : Instr) (src : Src) (v : Word) (s : State), (i = .gateRequest src v ∨ i = .gateWithdraw src v) → Writes src 0x220 s →
    ∃ t, exec i s = .next t ∧ t.pwr.gateReq = v.truncate 9
      ∧ (s.pwr.leased = 0 → s.pwr.override_ = 0 → s.pwr.gatePend = 0 →
          ∀ n, n < 9 → v.getLsbD n = true → s.pwr.gateReq.getLsbD n = false → t.pwr.gateStat.getLsbD n = true)
      ∧ (v.truncate 9 &&& ~~~ s.pwr.gateReq &&& ~~~ s.pwr.leased.zeroExtend 9 = 0 →
          t.pwr.gatePend = (s.pwr.gatePend &&& v.truncate 9) ||| (v.truncate 9 &&& ~~~ s.pwr.gateReq))

/-- A read of n bytes at a host-bus address whose selection is the reply port, outside single mode, with the device
awake: with no reply waiting it sends n zero bytes and changes nothing else; with one, it sends the count of waiting
replies, then tag, status, length, payload and CRC-16 of the oldest, filled with zeros, and the reply leaves the
queue exactly when all its bytes have been sent. A read that writes the port byte first does the same after the
selection has become the reply port; after a port byte that names no port the read serves the selection as it was. A read of the event port of an awake device outside the loader state sends one
little-endian 16-bit record per pending source of the booth, in ascending source number, with bit 15 set when the
source's mask bit is 1, then 0xFF 0xFF and zeros; no pending bit changes. A write of source numbers at or below 543,
or 0xFFFF, to the event port of a booth clears exactly those sources' pending bits of that booth, 0xFFFF all of
them, and changes no other booth and nothing beyond the bus; a lone trailing byte changes nothing. A number above
543 other than 0xFFFF is not acknowledged and ends the write: what stands before it has taken effect, what follows
has none. (R111, R113, R139, R157, R161, R372, R373.) -/
def Obligations.PortsHandOutRepliesAndEvents : Prop :=
  (
  (∀ (b : Booth) (n : Nat) (s : State), busAnswers s { booth := b, path := .host } false = true → s.hb.asleep = false →
    addrMode s ≠ 2 → s.hb.sel.get b = .reply →
    ((s.booth b).replies = [] →
      exec (.replyRead { booth := b, path := .host } none n) s = .next (sentTo (zeros n) s))
    ∧ ∀ r rs, (s.booth b).replies = r :: rs →
      let d := [r.tag, r.status.code] ++ leBytes 2 r.payload.length ++ r.payload
      let sent := sentTo (padTo n (BitVec.ofNat 8 (rs.length + 1) :: (d ++ leBytes 2 (crc16 d).toNat))) s
      exec (.replyRead { booth := b, path := .host } none n) s
        = .next (if r.payload.length + 7 ≤ n then sent.onBooth b fun x => { x with replies := rs } else sent))
  ∧ ∀ (b : Booth) (n : Nat) (s : State), busAnswers s { booth := b, path := .host } true = true →
    s.hb.asleep = false → addrMode s ≠ 2 → (s.booth b).mode = .enabled →
    exec (.replyRead { booth := b, path := .host } (some .reply) n) s
        = exec (.replyRead { booth := b, path := .host } none n)
            { s with hb := { s.hb with sel := s.hb.sel.set b .reply, ibrQuiet := none } }
    ∧ ∀ x : Byte, exec (.replyRead { booth := b, path := .host } (some (.other x)) n) s
        = exec (.replyRead { booth := b, path := .host } none n) { s with hb := { s.hb with ibrQuiet := none } })
  ∧
  (
  ∀ (b : Booth) (n : Nat) (s : State), busAnswers s { booth := b, path := .host } false = true → s.hb.asleep = false →
    s.boot.loader = false → addrMode s ≠ 2 → s.hb.sel.get b = .event → (s.booth b).mode = .enabled →
    ∃ recs : List Nat,
      exec (.eventPortRead { booth := b, path := .host } false n) s
        = .next (sentTo (padTo n (recs.flatMap (leBytes 2) ++ [0xFF, 0xFF])) s)
      ∧ recs.Pairwise (fun x y => x % 0x8000 < y % 0x8000)
      ∧ ∀ v, v ∈ recs ↔ ∃ (g : Fin 17) (i : Fin 32), ((s.booth b).pend.get g).getLsbD i.val = true
          ∧ v = 32 * g.val + i.val + (if ((s.booth b).mask.get g).getLsbD i.val then 0x8000 else 0))
  ∧
  (
  ∀ (src : Src) (vs : List Nat) (s : State), busAnswers s src true = true → s.hb.asleep = false → s.boot.loader = false →
    (∀ v ∈ vs, v ≤ 543 ∨ v = 0xFFFF) → busFits src (2 * vs.length) = true →
    ∃ t, exec (.eventPortWrite src (vs.flatMap (leBytes 2))) s = .next t ∧ OnlyBus s t ∧ t.hb.ack = true
      ∧ (∀ b, b ≠ src.booth → t.booth b = s.booth b)
      ∧ t.booth src.booth = { s.booth src.booth with pend := (t.booth src.booth).pend }
      ∧ (∀ (g : Fin 17) (i : Fin 32), ((t.booth src.booth).pend.get g).getLsbD i.val
          = (((s.booth src.booth).pend.get g).getLsbD i.val && !decide (32 * g.val + i.val ∈ vs) && !decide (0xFFFF ∈ vs)))
      ∧ (∀ x : Byte, busFits src (2 * vs.length + 1) = true → exec (.eventPortWrite src (vs.flatMap (leBytes 2) ++ [x])) s = .next t)
      ∧ ∀ (bad : Nat) (rest : Bytes), 543 < bad → bad < 0xFFFF → busFits src (2 * vs.length + 2 + rest.length) = true →
          exec (.eventPortWrite src (vs.flatMap (leBytes 2) ++ leBytes 2 bad ++ rest)) s = .next (t.onHb fun h => { h with ack := false }))

/-- BOOTH_PRIV from an enabled booth 1 to 7 of an awake device outside the loader state. A read from an aligned address
below 0x1000 that touches a word from 0x0200 on sends zeros for every such byte and raises EV_BOOTH_PRIV for the
booth and for booth 0; a read of the last word of the view raises nothing. A write whose first word lies from 0x0100
on below 0x1000 is not acknowledged, changes no register and raises the same event. An address that is not aligned,
or from 0x1000 on, is not acknowledged and raises nothing. (R111, R114, R115.) -/
def Obligations.AccessPastTheViewIsReported : Prop :=
  ∀ (src : Src) (s : State), busAnswers s src true = true → s.hb.asleep = false → s.boot.loader = false → src.booth ≠ 0 →
    (s.booth src.booth).mode = .enabled → (s.booth 0).mode = .enabled →
    (∀ (a : Half) (n : Nat), a.toNat % 4 = 0 → a.toNat < 0x1000 → 0 < n → 0x200 < a.toNat + n → busFits src n = true →
      ∃ t, exec (.boothPriv src (.read a n)) s = .next t ∧ OnlyBus s t ∧ t.hb.ack = true ∧ t.hb.out.length = n
        ∧ (∀ k, k < n → 0x200 ≤ a.toNat + k → t.hb.out.getD k 0 = 0)
        ∧ pends .boothPriv src.booth t = true ∧ pends .boothPriv 0 t = true
        ∧ t.cmd = { s.cmd with booths := t.cmd.booths } ∧ ∀ b, t.booth b = { s.booth b with pend := (t.booth b).pend })
    ∧ (∀ n : Nat, 0 < n → n ≤ 4 →
      ∃ t, exec (.boothPriv src (.read 0x1FC n)) s = .next t ∧ t.cmd = s.cmd ∧ OnlyBus s t ∧ t.hb.ack = true)
    ∧ (∀ (a : Half) (d : Bytes) (c : ClearResult), a.toNat % 4 = 0 → 0x100 ≤ a.toNat → a.toNat < 0x1000 → d ≠ [] →
        busFits src d.length = true →
      ∃ t, exec (.boothPriv src (.write a d c)) s = .next t ∧ OnlyBus s t ∧ t.hb.ack = false
        ∧ pends .boothPriv src.booth t = true ∧ pends .boothPriv 0 t = true
        ∧ t.cmd = { s.cmd with booths := t.cmd.booths } ∧ ∀ b, t.booth b = { s.booth b with pend := (t.booth b).pend })
    ∧ ∀ (acc : RegAccess) (a : Half) (n : Nat), (acc = .read a n ∨ ∃ d c, acc = .write a d c ∧ d.length = n) → busFits src n = true →
      (a.toNat % 4 ≠ 0 ∨ 0x1000 ≤ a.toNat) →
      exec (.boothPriv src acc) s = .next (s.onHb fun h => { h with ibrQuiet := quietAfter src s, out := [], ack := false })

/-- HB_WAKE at an address that a sleeping device answers: with WAKE_MODE 0 it is acknowledged and the device is awake,
an idle VIN reading due and a used DRBG reseeded; with WAKE_MODE 1 it is not acknowledged and the device stays awake
for 10 ms. IBR_START with no request on the bus takes the lowest booth that may request. IBR_SEND completed sends
the booth's address with the read bit, in single mode the booth byte, the pending-event byte, and 0xFF for each byte
that the controller reads on, and satisfies the request; a NACKed address drops it. IBR_TIMEOUT raises EV_IBR_TIMEOUT and keeps quiet for 100 ms. (R117, R118, R121, R122, R123, R124, R209, Table
6-2, Table 6-5.) -/
def Obligations.BusWakeAndInBandRequests : Prop :=
  (∀ (b : Booth) (s : State), s.hb.asleep = true → busAnswers s { booth := b, path := .host } false = true →
    ∃ t, exec (.hbWake b) s = .next t ∧ t.hb.asleep = false ∧ t.pwr = { s.pwr with wakeDue := true } ∧ t.cmd = s.cmd
      ∧ t.keep = (if s.keep.drbgUsed = true then
          { s.keep with drbgSeeds := s.keep.drbgSeeds + 1, drbgReqs := 0, drbgUsed := false } else s.keep)
      ∧ t.hb.ack = !s.hb.cfg.getLsbD 4
      ∧ (s.hb.cfg.getLsbD 4 = true → t.hb.awakeTill = s.ao.rtc + ticksMs 10)
      ∧ t = { s with hb := t.hb, pwr := t.pwr, keep := t.keep })
  ∧ (∀ (b : Booth) (s : State), s.hb.ibrBusy = none → s.hb.ibrQuiet = none → ibrReady s b = true →
    (∀ c : Booth, c < b → ibrReady s c = false) →
    exec .ibrStart s = .next (s.onHb fun h => { h with ibrBusy := some b }))
  ∧ (∀ (b : Booth) (s : State), s.hb.ibrBusy = some b →
    (∀ more : Nat, ∃ t, exec (.ibrSend (.completed more)) s = .next t
      ∧ t.hb.out = [BitVec.ofNat 8 (2 * busAddr s b + 1)] ++ (if addrMode s = 2 then [BitVec.ofNat 8 b.val] else [])
          ++ [pendByte s b] ++ List.replicate more 0xFF
      ∧ t.hb.ibrBusy = none ∧ t.hb.ibrReq = s.hb.ibrReq &&& ~~~ (1#8 <<< b.val) ∧ t = { s with hb := t.hb })
    ∧ ∃ t, exec (.ibrSend .addressNacked) s = .next t ∧ t.hb.ibrBusy = none
      ∧ t.hb.ibrReq = s.hb.ibrReq &&& ~~~ (1#8 <<< b.val) ∧ t.hb.ack = false ∧ t = { s with hb := t.hb })
  ∧ ∀ (b : Booth) (s : State), s.hb.ibrBusy = some b → s.boot.loader = false →
    ∃ t, exec .ibrTimeout s = .next t ∧ t.hb.ibrBusy = none ∧ t.hb.ibrQuiet = some (s.ao.rtc + ticksMs 100)
      ∧ Raised .ibrTimeout s t ∧ OnlyBus s t

/-- While the port requires a challenge: a nonce read sends a nonce and ID_UNIQUE and makes that nonce the outstanding
one; with a failing entropy source it sends nothing. A signature by the owner key over the outstanding nonce and
ID_UNIQUE opens the port, any other discards the nonce and raises EV_DBG_DENIED, and the third bad one closes the
port: at once while the hash and curve engine is free, else when the signature's turn on it ends; the nonce is used up
when the signature arrives. The nonce is a free value (log 9). (R104, R193, R210, R405, Table 5-3, Table 5-5, Table
8-1.) -/
def Obligations.DebugChallengeOpensThePort : Prop :=
  ∀ s : State, (s.phase = .running ∨ s.phase = .holdSafe) → s.boot.loader = false → s.boot.dbg = .challenge →
    (s.keep.rngFailing = false → ∀ n, 1 ≤ n → n ≤ 255 →
      ∃ nonce t, exec (.dbgNonceRead n) s = .next t ∧ t.boot = { s.boot with nonce := some nonce } ∧ nonce.length = 16
        ∧ t.hb.out = padTo n (nonce ++ leBytes 8 Config.idUnique.toNat) ∧ t.cmd = s.cmd ∧ t.nv = s.nv)
    ∧ (s.keep.rngFailing = true → ∀ n, 1 ≤ n → n ≤ 255 →
      ∃ t, exec (.dbgNonceRead n) s = .next t ∧ t.hb.out = [] ∧ t.boot = s.boot)
    ∧ (∀ sig : Bytes, 1 ≤ sig.length → sig.length ≤ 255 → EngineFree .hash s →
      ((∃ nonce, s.boot.nonce = some nonce ∧ ownerVerifies s sig (nonce ++ leBytes 8 Config.idUnique.toNat) = true) →
        exec (.dbgChallenge sig) s = .next (s.onBoot fun b => { b with nonce := none, dbg := .unlocked }))
      ∧ ((∀ nonce, s.boot.nonce = some nonce → ownerVerifies s sig (nonce ++ leBytes 8 Config.idUnique.toNat) = false) →
        ∃ t, exec (.dbgChallenge sig) s = .next t ∧ Raised .dbgDenied s t
          ∧ t.boot = { s.boot with nonce := none, dbgBad := s.boot.dbgBad + 1,
                                   dbg := if 2 ≤ s.boot.dbgBad then .closed else .challenge }
          ∧ t = { s with boot := t.boot, hb := t.hb, cmd := t.cmd }))
    ∧ (∀ sig : Bytes, 1 ≤ sig.length → sig.length ≤ 255 → s.keep.hash.cur ≠ none →
      exec (.dbgChallenge sig) s = .next ((s.onBoot fun b => { b with nonce := none }).onKeep fun k =>
        { k with hash := { k.hash with
            queue := k.hash.queue ++ [{ booth := 0, tag := 0, op := .dbgSig s.boot.nonce sig }] } }))
    ∧ ∀ (sig nonce : Bytes), s.keep.cpWanted = false → s.car.queue = [] →
      s.keep.hash = { cur := some (.cmd { booth := 0, tag := 0, op := .dbgSig (some nonce) sig } [] none), queue := [] } →
      (ownerVerifies s sig (nonce ++ leBytes 8 Config.idUnique.toNat) = true →
        exec (.engineOperationEnd .hash) s
          = .next ((s.onBoot fun b => { b with dbg := .unlocked }).onKeep fun k => { k with hash := Engine.start }))
      ∧ (ownerVerifies s sig (nonce ++ leBytes 8 Config.idUnique.toNat) = false →
        ∃ t, exec (.engineOperationEnd .hash) s = .next t ∧ Raised .dbgDenied s t
          ∧ t.boot = { s.boot with dbgBad := s.boot.dbgBad + 1, dbg := if 2 ≤ s.boot.dbgBad then .closed else .challenge }
          ∧ t.nv = s.nv)

/-- GP_ASSIGN with legal fields of a pin that is not the TCXO enable: as an output of a FLOAT pin it is answered
ST_REST_FLOAT and changes nothing else; otherwise the pin is let go and takes its new booth and direction. GP_WRITE
by booth 0, or by the booth to which the pin is assigned, of an output pin drives it active or to rest; of a pin
that is unassigned or an input it is answered ST_BAD_PARAM, from another booth 1 to 7 ST_PRIV. Naming the TCXO
enable is ST_IN_USE, with booth 0 as holder, or ST_PRIV for a GP_WRITE from a booth 1 to 7. GP_READ returns the four
pin levels. (R52, R54, R56, R57, R64, R146, Table 7-2.) -/
def Obligations.GpCommandsActOnTheirPins : Prop :=
  (∀ (p : Packet) (n : Fin 4) (s : State), Serves op_gpAssign Needs.none p s → byteAt p.payload 0 = BitVec.ofNat 8 n.val →
    (byteAt p.payload 1).toNat < 8 → (byteAt p.payload 2).toNat < 2 → byteAt p.payload 3 = 0 →
    (tcxoPin s = some n → exec (.gpAssign p) s = .next (replied p .inUse [0] s))
    ∧ (tcxoPin s ≠ some n → byteAt p.payload 2 = 1 → s.door.rest.get (gpIdx n) = .float →
        exec (.gpAssign p) s = .next (replied p .restFloat [] s))
    ∧ (tcxoPin s ≠ some n → (byteAt p.payload 2 = 0 ∨ s.door.rest.get (gpIdx n) ≠ .float) →
        exec (.gpAssign p) s = .next (replied p .ok [] ((letGo (gpIdx n) s).onDoor fun d =>
          { d with gp := d.gp.set n { booth := some (Fin.ofNat 8 (byteAt p.payload 1).toNat),
                                      out := decide (byteAt p.payload 2 = 1) } }))))
  ∧ (∀ (p : Packet) (n : Fin 4) (s : State), Serves op_gpWrite Needs.none p s → byteAt p.payload 0 = BitVec.ofNat 8 n.val →
    (byteAt p.payload 1).toNat < 2 →
    (tcxoPin s = some n → p.src.booth = 0 → exec (.gpWrite p) s = .next (replied p .inUse [0] s))
    ∧ (tcxoPin s = some n → p.src.booth ≠ 0 → exec (.gpWrite p) s = .next (replied p .priv [] s))
    ∧ (tcxoPin s ≠ some n → p.src.booth ≠ 0 → (s.door.gp.get n).booth ≠ some p.src.booth →
        exec (.gpWrite p) s = .next (replied p .priv [] s))
    ∧ (tcxoPin s ≠ some n → (p.src.booth = 0 ∨ (s.door.gp.get n).booth = some p.src.booth) →
        ((s.door.gp.get n).booth = none ∨ (s.door.gp.get n).out = false) →
        exec (.gpWrite p) s = .next (replied p .badParam [] s))
    ∧ (tcxoPin s ≠ some n → (p.src.booth = 0 ∨ (s.door.gp.get n).booth = some p.src.booth) →
        (s.door.gp.get n).booth ≠ none → (s.door.gp.get n).out = true →
        exec (.gpWrite p) s = .next (replied p .ok [] (setPin (gpIdx n) (if byteAt p.payload 1 = 1 then .active else .rest) s))))
  ∧ ∀ (p : Packet) (ext : BitVec 4) (s : State), Serves op_gpRead Needs.none p s →
    exec (.gpRead p ext) s = .next (replied p .ok [BitVec.ofNat 8 (gpLevels (s.onDoor fun d => { d with gpExt := ext }))]
      (s.onDoor fun d => { d with gpExt := ext }))

/-- PBUS_XFER with legal fields, from booth 0 or the booth that a valid PB_OWN entry names, with the bus up: if a
transfer is in progress it waits behind it; else it runs at once: the read bytes with ST_OK, ST_PBUS_NACK for its
address, ST_PBUS_NACK with the count for a data byte; stretched, it stays on the bus; after a lost arbitration,
which is counted, it backs off. From another booth it is answered ST_PRIV; naming 0x3C, ST_BAD_PARAM; with the bus
disabled or CTRL_EN 0, ST_PBUS_DOWN. A transfer that backs off in running is tried again: a completed one is
answered with its bytes and the next waiting one is due; a lost one backs off again until the eighth loss, which is
answered ST_PBUS_ARB with EV_PBUS_ARB. A stretched transfer that times out is answered ST_PBUS_TIMEOUT with
EV_PBUS_TIMEOUT, after a bus clear; when that leaves PSDA low the bus is disabled with EV_PBUS_STUCK. A transfer that
finds the engine gated runs as one that does not when the present VCORE suffices; else it waits, undriven, for the
pre-raise it begins. (R28, R127, R128, R129, R131, R132, R133, Table 4-7, Table 7-2, Table 7-3.) -/
def Obligations.PbusTransfersRunAndEnd : Prop :=
  (
  ∀ (p : Packet) (run : PbusRun) (s : State), Serves op_pbusXfer (needsPbus s) p s → byteAt p.payload 3 = 0 →
    p.payload.length = 4 + (byteAt p.payload 1).toNat → (byteAt p.payload 0).toNat < 128 →
    let x : Xfer := { booth := p.src.booth, tag := p.tag, addr := byteAt p.payload 0, data := p.payload.drop 4,
                      count := (byteAt p.payload 2).toNat, lost := 0, onBus := false, wait := none }
    let owned := p.src.booth = 0 ∨ ∃ n : Fin 8, (s.pb.own.get n).getLsbD 15 = true
      ∧ bits (s.pb.own.get n) 0 7 = (byteAt p.payload 0).toNat ∧ bits (s.pb.own.get n) 8 3 = p.src.booth.val
    (byteAt p.payload 0 = 0x3C → exec (.pbusXfer p run) s = .next (replied p .badParam [] s))
    ∧ (byteAt p.payload 0 ≠ 0x3C → ¬ owned → exec (.pbusXfer p run) s = .next (replied p .priv [] s))
    ∧ (byteAt p.payload 0 ≠ 0x3C → owned → s.pb.xfer ≠ none →
        exec (.pbusXfer p run) s = .next ((accepted op_pbusXfer.op p s).onPb fun b => { b with queue := b.queue ++ [x] }))
    ∧ (byteAt p.payload 0 ≠ 0x3C → owned → s.pb.xfer = none → s.pwr.gateStat.getLsbD 5 = true →
        s.pwr.releasing.getLsbD 5 = false →
        (preLevel s 5 ≤ s.pwr.level → exec (.pbusXfer p run) s
          = exec (.pbusXfer p run) (s.onPwr fun w => { w with gateStat := w.gateStat &&& ~~~ 0x20 }))
        ∧ (s.pwr.level < preLevel s 5 → ∃ t, exec (.pbusXfer p run) s = .next t
          ∧ t.pb = { s.pb with xfer := some { x with wait := some run } } ∧ t.pwr.gateStat = s.pwr.gateStat
          ∧ t.pwr.releasing = s.pwr.releasing ||| 0x20 ∧ t.cmd.svc = (accepted op_pbusXfer.op p s).cmd.svc ∧ t.door = s.door))
    ∧ (byteAt p.payload 0 ≠ 0x3C → owned → s.pb.xfer = none → s.pb.queue = [] → s.pwr.gateStat.getLsbD 5 = false →
        ((s.pb.disabled = true ∨ s.pb.cfg.getLsbD 9 = false) →
          exec (.pbusXfer p run) s = .next (replied p .pbusDown [] s))
        ∧ (s.pb.disabled = false → s.pb.cfg.getLsbD 9 = true → run.clearFirst = none →
          exec (.pbusXfer p run) s = .next (match run.out with
            | .done read => replied p .ok (padTo (byteAt p.payload 2).toNat read) s
            | .addrNack => replied p .pbusNack [] s
            | .dataNack k => replied p .pbusNack [k] s
            | .stretching => (accepted op_pbusXfer.op p s).onPb fun b => { b with xfer := some { x with onBus := true } }
            | .arbLost => (accepted op_pbusXfer.op p s).onPb fun b =>
                { b with xfer := some { x with lost := 1 }, arbLost := min 255 (b.arbLost + 1) }))))
  ∧
  (
  ∀ (x : Xfer) (s : State), s.pb.xfer = some x → s.phase = .running → s.boot.loader = false →
    (∀ run : PbusRun, x.onBus = false → x.wait = none → s.pwr.gateStat.getLsbD 5 = false → s.pb.disabled = false → s.pb.cfg.getLsbD 9 = true → run.clearFirst = none →
      (∀ read, run.out = .done read →
        exec (.pbusRetry run) s = .next ((answered x.booth x.tag .ok (padTo x.count read) s).onPb fun b =>
          { b with xfer := b.queue.head?, queue := b.queue.tail }))
      ∧ (run.out = .arbLost → x.lost < 7 →
        exec (.pbusRetry run) s = .next (s.onPb fun b =>
          { b with xfer := some { x with lost := x.lost + 1 }, arbLost := min 255 (b.arbLost + 1) }))
      ∧ (run.out = .arbLost → 7 ≤ x.lost →
        ∃ t, exec (.pbusRetry run) s = .next t ∧ Raised .pbusArb s t ∧ ReplyAdded x.booth x.tag .pbusArb [] s t
          ∧ t.pb = { s.pb with xfer := s.pb.queue.head?, queue := s.pb.queue.tail, arbLost := min 255 (s.pb.arbLost + 1) }
          ∧ t = { s with hb := t.hb, cmd := t.cmd, pb := t.pb }))
    ∧ ∀ clear : ClearResult, x.onBus = true →
      ∃ t, exec (.pbusTimeout clear) s = .next t ∧ Raised .pbusTimeout s t ∧ ReplyAdded x.booth x.tag .pbusTimeout [] s t
        ∧ t.pb = { s.pb with xfer := s.pb.queue.head?, queue := s.pb.queue.tail, disabled := decide (clear = .stuck) }
        ∧ (clear = .stuck → Raised .pbusStuck s t) ∧ t = { s with hb := t.hb, cmd := t.cmd, pb := t.pb })

/-- While the target is up and the device awake. With four reports in the intake buffer a write at 0x3C is not
acknowledged and the result byte is 5. Else a good report joins the intake with its source and the result byte is 1;
any other write is counted, raises EV_PBUS_BADREPORT, and the result byte is 4. A result read repeats the result
byte and does not change it. CRED_WAKE appears in the door inputs, asserted and deasserted; its assertion in running,
without a gate request, opens the PBUS engine's gate when the present VCORE suffices, and otherwise begins the
pre-raise, the gate still closed; under a gate request it opens nothing. 20 quiet ms in sleep without a transfer close
the gate. CRED_SUBMIT puts its token in the intake
without a reply. (R28, R133, R134, R135, R136, R213, R214, R224, Table 6-8.) -/
def Obligations.CredentialReportsReachTheIntake : Prop :=
  (∀ (d : Bytes) (s : State), s.phase = .running → s.pb.cfg.getLsbD 8 = true → s.pb.disabled = false →
    s.pwr.gateStat.getLsbD 5 = false → s.hb.asleep = false → s.boot.loader = false →
    (4 ≤ intakeReports s →
      exec (.credReport d) s = .next ((s.onVd fun v => { v with result := 5 }).onHb fun h => { h with ack := false }))
    ∧ (intakeReports s < 4 → d.length = 36 → byteAt d 0 = 1 → (byteAt d 1).toNat ≤ 3 →
        crc16 (d.take 34) = BitVec.ofNat 16 (leField d 34 2) →
        ∃ t, exec (.credReport d) s = .next t ∧ t.vd.intake = s.vd.intake ++ [{ token := sub d 2 32, via := .pbus (byteAt d 1) }]
          ∧ t.vd.result = 1 ∧ t.hb = { s.hb with ack := true } ∧ t.cmd = s.cmd ∧ t.pb = s.pb ∧ t.nv = s.nv)
    ∧ (intakeReports s < 4 → ¬ (d.length = 36 ∧ byteAt d 0 = 1 ∧ (byteAt d 1).toNat ≤ 3
          ∧ crc16 (d.take 34) = BitVec.ofNat 16 (leField d 34 2)) →
        ∃ t, exec (.credReport d) s = .next t ∧ t.vd = { s.vd with result := 4 } ∧ Raised .pbusBadreport s t
          ∧ t.pb = { s.pb with badReports := min 255 (s.pb.badReports + 1) } ∧ t.nv = s.nv ∧ t.door = s.door)
    ∧ ∀ n, exec (.pbusResultRead n) s
        = .next (s.onHb fun h => { h with out := List.replicate n s.vd.result, ack := true }))
  ∧ (∀ s : State, s.phase = .running → s.pwr.vddioOk = true →
    exec (.credWake false) s = .next (s.onDoor fun d => { d with credWake := false })
    ∧ (s.pwr.gateReq.getLsbD 5 = true → exec (.credWake true) s = .next (s.onDoor fun d => { d with credWake := true }))
    ∧ (s.pwr.gateReq.getLsbD 5 = false → s.pwr.gateStat.getLsbD 5 = false →
      exec (.credWake true) s = .next (s.onDoor fun d => { d with credWake := true }))
    ∧ (s.pwr.gateReq.getLsbD 5 = false → s.pwr.gateStat.getLsbD 5 = true → s.pwr.releasing.getLsbD 5 = false →
      (preLevel s 5 ≤ s.pwr.level →
        exec (.credWake true) s = .next ((s.onDoor fun d => { d with credWake := true }).onPwr fun p =>
          { p with gateStat := p.gateStat &&& ~~~ 0x20 }))
      ∧ (s.pwr.level < preLevel s 5 →
        ∃ t, exec (.credWake true) s = .next t ∧ t.door = { s.door with credWake := true }
          ∧ t.pwr = { s.pwr with releasing := s.pwr.releasing ||| 0x20, raising := true,
                                 preTarget := max s.pwr.preTarget (preLevel s 5) }
          ∧ t.pb = s.pb ∧ t.nv = s.nv)))
  ∧ (∀ s : State, s.phase = .running → s.hb.asleep = true → s.pb.xfer = none → s.pwr.gateStat.getLsbD 5 = false →
    ∃ t, exec .pbusIdleGate s = .next t ∧ t.pwr.gateStat = s.pwr.gateStat ||| 0x20 ∧ t.pb = s.pb ∧ t.cmd = s.cmd)
  ∧ ∀ (p : Packet) (s : State), Serves op_credSubmit Needs.none p s →
    ∃ t, exec (.credSubmit p) s = .next t
      ∧ t.vd.intake = s.vd.intake ++ [{ token := p.payload, via := .host p.src.booth p.tag }]
      ∧ t.cmd = (accepted op_credSubmit.op p s).cmd ∧ t.nv = s.nv ∧ t.door = s.door ∧ t.vd.wait = s.vd.wait

/-- The engine takes the credential at the head of the intake, alone in its window, no memory error being met and no car
finishing meanwhile. Its code is that of the first failing check of Table 11-4, in the table's order, or GRANT or
GRANT_EMERGENCY. A host credential is answered with code, flags and log sequence; a PBUS one sets the result byte
when no other report waits. EV_GRANT or EV_DENY is raised; a denial leaves the door as it was, a grant at an idle
motor lock starts the opening movement. Nonvolatile state and memory do not change. (R211, R212, R215, R216, R217,
R218, R219, R220, R222, R223, R227, Table 11-4.) -/
def Obligations.FirstFailingCheckDecidesTheVerdict : Prop :=
  ∀ (c : Cred) (rest : List Cred) (w : Win) (s : State), s.phase = .running → s.boot.loader = false →
    s.vd.intake = c :: rest → s.vd.windows = [w] → w.members = [] → w.closed = false → 0 < w.expect → s.err.bad = [] →
    let x := c.token
    let e := tokEmergency x
    let rule := memRead s.mem (rightsBase + 4 * tokGroup x) 4
    let code : Byte :=
      if lifeCycle s = .blank ∨ lifeCycle s = .retired ∨ cellWritten s 4 = false ∨ cellWritten s 5 = false then 0x11
      else if ¬ (byteAt x 0 = 1 ∧ (byteAt x 1).toNat < 4 ∧ ofLe (tokId x) ≠ 0 ∧ tokScope x ≠ 0 ∧ tokFrom x < tokUntil x
        ∧ tokEpoch x ≠ 0) then 0x10
      else if (keySlot s 2).typ ≠ .empty ∧ (keySlot s 2).epoch.toNat ≠ tokEpoch x
        ∧ ((keySlot s 3).typ = .empty ∨ (keySlot s 3).epoch.toNat ≠ tokEpoch x) then 0x12
      else if (keySlot s 2).typ = .empty then 0x13
      else if tagOk s x = false then 0x14
      else if ofLe (tokId x) ∈ s.nv.revoked then 0x15
      else if s.nv.revFull = true ∧ e = false then 0x20
      else if tokScope x ≠ 0xFFFF ∧ tokScope x ≠ doorId s then 0x17
      else if byteAt rule 0 = 0 ∨ (e = true ∧ (byteAt rule 1).getLsbD 1 = false) then 0x18
      else if timeUnsure s = true then 0x1A
      else if devSec s < tokFrom x then 0x1C
      else if tokUntil x ≠ 0xFFFFFFFF ∧ tokUntil x ≤ devSec s then 0x1B
      else if e = false ∧ insideSchedule s s (byteAt rule 0).toNat = false then 0x19
      else if replayed s x = true then 0x1D
      else if e = false ∧ s.door.privacy = true ∧ (byteAt rule 1).getLsbD 0 = false then 0x1E
      else if e = false ∧ logFull s = true ∧ logSealed s = false then 0x1F
      else if e = true then 0x01 else 0x00
    let seq := if logSealed s = true then 0xFFFFFFFFFF else nextSeq s
    ∃ t, exec (.verdict { ecc := [], mid := false, second := false }) s = .next t
      ∧ t.vd.intake = rest ∧ t.vd.last = some (code, seq)
      ∧ (∀ b tag, c.via = .host b tag → ReplyAdded b tag .ok
          ([code, BitVec.ofNat 8 (4 * bit (!restOk s) + 8 * bit s.nv.behind + 32 * bit (logSealed s) + 64 * bit s.pwr.limit)]
            ++ leBytes 5 seq ++ [0]) s t)
      ∧ (∀ y, c.via = .pbus y → s.vd.result = 1 → (∀ d ∈ rest, ∃ b tag, d.via = .host b tag) →
          t.vd.result = if code = 0 ∨ code = 1 then 2 else 3)
      ∧ Raised (if code = 0 ∨ code = 1 then .grant else .deny) s t
      ∧ (code ≠ 0 → code ≠ 1 → t.door = s.door)
      ∧ (code = 0 ∨ code = 1 → mayMove s = true → s.door.latch = .idle → heldIdle s 2 = false →
          t.door.latch = .opening ∧ t.door.byGrant = true ∧ t.door.dwellMs = 100 * bits s.door.timing 8 8
          ∧ t.door.pins.get 0 = .active ∧ t.door.pins.get 1 = .rest ∧ t.door.pins.get 2 = .active)
      ∧ t.nv = s.nv ∧ t.mem = s.mem

/-- A window holds one judged credential; the next one, whose own code is j, joins it. Beside a revoked first one, a
valid second one is granted, or denied with 0x16, as SP_REVOKED_TOGETHER says. A revoked second one withdraws the
grant of a valid first one when that cell denies: EV_GRANT_WITHDRAWN, WITHDRAWN in its entry, code 0x16, and an
opening movement goes to the dead time before closing. An emergency grant is not withdrawn. A second token of the
same ID is a repeat: same code, same log sequence (all ones once the log is sealed), no entry of its own. WINDOW_CLOSE with the open window's one
credential judged and its entry's turn come: the VERDICT entry with its sequence, source and fields becomes the
newest, the window is gone, and a granted credential without STATIC has its counter in the recent table, as the
entry granted last. A slot write held back by a re-run proceeds as the car's verification: an EPOCH car's key goes into
slot 2, the one it held into slot 3, with EV_EPOCH_NEW. (R203, R204, R217, R218, R223,
R224, R225, R226, R228, Table 11-6, Table 17-2, Table 17-3.) -/
def Obligations.WindowsJoinCredentialsAndWriteVerdicts : Prop :=
  (
  ∀ (c : Cred) (rest : List Cred) (w : Win) (m : Member) (j : Byte) (s : State), s.phase = .running → s.boot.loader = false →
    s.vd.intake = c :: rest → s.vd.windows = [w] → w.members = [m] → w.closed = false → 0 < w.expect → s.err.bad = [] →
    s.vd.noMove = false → m.dup = false → m.code = m.own → checks s s [] [] c.token = j →
    ∃ t, exec (.verdict { ecc := [], mid := false, second := false }) s = .next t ∧ t.vd.intake = rest
      ∧ t.nv = s.nv ∧ t.mem = s.mem
      ∧ (tokId c.token ≠ tokId m.token →
          (m.own = 0x15 → j = 0x00 → cellNat s 9 = 0 → t.door = s.door ∧ Raised .deny s t
            ∧ ∃ q, t.vd.last = some (0x16, q))
          ∧ (m.own = 0x15 → j = 0x00 → cellNat s 9 ≠ 0 → Raised .grant s t ∧ ∃ q, t.vd.last = some (0x00, q))
          ∧ (m.own = 0x15 → j = 0x00 → w.revSeen = false → Raised .revokedSeen s t)
          ∧ (m.own = 0x00 → j = 0x15 → cellNat s 9 = 0 → Raised .grantWithdrawn s t
            ∧ (∃ x y, t.vd.windows = [x] ∧ x.members = [{ m with code := 0x16, flags := m.flags ||| 0x0010 }, y] ∧ y.code = 0x15)
            ∧ (s.door.byGrant = true → mayMove s = true → s.door.latch = .opening → t.door.dead = some .close)
            ∧ (s.door.byGrant = false → t.door = s.door))
          ∧ (m.own = 0x01 → j = 0x15 → t.door = s.door ∧ ∃ x y, t.vd.windows = [x] ∧ x.members = [m, y] ∧ y.code = 0x15))
      ∧ (tokId c.token = tokId m.token → m.tagged = true → earlyFail j = false →
          let q := if logSealed s = true then 0xFFFFFFFFFF else m.seq
          t.vd.last = some (m.code, q) ∧ t.vd.wait = s.vd.wait
          ∧ ∀ b tag, c.via = .host b tag → ∃ flags : Byte, flags.getLsbD 0 = true ∧ flags.getLsbD 4 = true
            ∧ flags.getLsbD 5 = logSealed s ∧ ReplyAdded b tag .ok ([m.code, flags] ++ leBytes 5 q ++ [0]) s t))
  ∧
  (
  (∀ (w : Win) (m : Member) (s : State), s.phase = .running → s.vd.windows = [w] → w.members = [m] → w.closed = false →
    w.expect = 0 → m.dup = false → m.token.length = 32 → s.vd.wait = [none] → m.seq = s.nv.log.next →
    s.nv.log.next < 0xFFFFFFFFFE →
    ∃ t, exec .windowClose s = .next t ∧ t.vd.windows = [] ∧ t.vd.wait = [] ∧ t.door = s.door
      ∧ Logged 0x01 (match m.via with | .host b _ => 0x10 ||| BitVec.ofNat 8 b.val | .pbus x => 0x20 ||| x)
          (sub m.token 2 6 ++ sub m.token 8 2 ++ sub m.token 10 2 ++ sub m.token 20 2 ++ sub m.token 22 2 ++ sub m.token 16 4
            ++ [m.code, BitVec.ofNat 8 m.ordinal, BitVec.ofNat 8 (latchCode s)]) s t
      ∧ (m.code = 0x00 ∨ m.code = 0x01 → tokStatic m.token = false →
          ∃ i, t.nv.recentOrder.getLast? = some i ∧ memRead t.mem (recentBase + 8 * i) 8 = sub m.token 2 6 ++ sub m.token 22 2)
      ∧ (m.code ≠ 0x00 → m.code ≠ 0x01 → t.mem = s.mem ∧ t.nv.recentOrder = s.nv.recentOrder))
  ∧ (∀ (env : CarEnv) (s : State), s.phase = .running → s.keep.held = true →
    exec (.heldSlotWrite env) s = exec (.carVerified env) (s.onKeep fun k => { k with held := false }))
  ∧ ∀ (env : CarEnv) (q : QCar) (e : Nat × Bytes) (key : Bytes) (s : State), s.phase = .running → s.boot.loader = false →
    s.keep.held = true → s.keep.hash = { cur := some .car, queue := [] } → s.car.queue = [q] → env.ecc = [] →
    s.rx.window = none → EngineFree .aes s → carSigsOk q.bytes = true → carOrder s true q.bytes = .ok → carTyp q.bytes = 3 →
    epochEntry s (carPayload q.bytes) = some e → ((keySlot s 2).typ = .empty ∨ (keySlot s 2).epoch.toNat < e.1) →
    (keySlot s 1).typ = .wrap256 → keyUnwrap (keySlot s 1).key e.2 = some key →
    ∃ t, exec (.heldSlotWrite env) s = .next t ∧ t.keep.held = false ∧ t.car.queue = [] ∧ Raised .epochNew s t
      ∧ keySlot t 2 = { typ := .epoch256, key := key, gen := (keySlot s 2).gen + 1, epoch := BitVec.ofNat 16 e.1, fromCar := true }
      ∧ ((keySlot s 2).typ = .empty → keySlot t 3 = keySlot s 3)
      ∧ ((keySlot s 2).typ ≠ .empty → keySlot t 3 = { typ := .epoch256, key := (keySlot s 2).key, gen := (keySlot s 3).gen + 1,
                                                      epoch := (keySlot s 2).epoch, fromCar := true })
      ∧ ∀ k, k ≠ 2 → k ≠ 3 → keySlot t k = keySlot s k)

/-- In a movement, with the pins in order: a stall ends it, and so does MOTOR_MS when STALL_MV is 0. Opening then leads
to the dwell, or to latch state 5 for a hold, closing to idle with the loaded VIN reading taken; the driven pins are
let go. With STALL_MV not 0, MOTOR_MS is a MOTOR_TIMEOUT fault, and a driven door output that reads back wrong is a
DRIVE fault: latch state 6, EV_LATCH_FAULT and a LATCH_FAULT entry with kind, movement and loaded VIN. While
movements may start: the end of the dwell of a motor lock closes it, or waits for an open door; of a holding lock it
is the end of the sequence. The dead time leads to a new opening or to closing; a close retry closes once more.
Opening drives LATCH_A and DRV_EN active with LATCH_B at rest, closing LATCH_B and DRV_EN active with LATCH_A at
rest. At the end of a let-go the pin is high-impedance, and nothing else changes. (R51, R55, R56, R69, R227, R228,
R229, R230, R231, Table 11-7, Table 17-3.) -/
def Obligations.LatchMovesAsItsSensesAndTimersSay : Prop :=
  (
  ∀ (mv : Half) (s : State), PinsAtRest s.door → s.phase = .running → s.boot.loader = false → s.door.dead = none →
    (∀ i : Instr, (i = .motorStall mv ∧ bits s.door.seqMotor 0 12 ≠ 0) ∨ (i = .motorTimeout mv ∧ bits s.door.seqMotor 0 12 = 0) →
      (s.door.latch = .opening → ∃ t, exec i s = .next t
        ∧ t.door.latch = (if s.door.holdOpen = true then .held else .dwell)
        ∧ (∀ k : Fin 7, k.val < 3 → (s.door.pins.get k).driven = true → t.door.pins.get k = .letGo)
        ∧ (∀ k : Fin 7, 3 ≤ k.val → t.door.pins.get k = s.door.pins.get k) ∧ t.door.dwellMs = s.door.dwellMs
        ∧ t.nv = s.nv ∧ t.cmd = s.cmd ∧ t.hb = s.hb)
      ∧ (s.door.latch = .closing → ∃ t, exec i s = .next t ∧ t.door.latch = .idle ∧ t.door.byGrant = false
        ∧ t.pwr.loadMv = (match s.pwr.loadMin with | none => mv | some m => if mv < m then mv else m) ∧ t.pwr.loadMin = none
        ∧ (∀ k : Fin 7, k.val < 3 → s.door.outCfg.getLsbD k.val = false → (s.door.pins.get k).driven = true →
            t.door.pins.get k = .letGo)
        ∧ t.nv = s.nv))
    ∧ (s.door.latch = .opening ∨ s.door.latch = .closing → LogReady s → bits s.door.seqMotor 0 12 ≠ 0 →
      ∃ t, exec (.motorTimeout mv) s = .next t ∧ t.door.latch = .fault ∧ Raised .latchFault s t
        ∧ t.door.retryWait = (decide (s.door.latch = .closing) && !s.door.retried)
        ∧ Logged 0x04 0x00 ([1, if s.door.latch = .opening then 1 else 2] ++ leBytes 2 t.pwr.loadMv.toNat) s t
        ∧ ∀ k : Fin 7, k.val < 3 → (t.door.pins.get k).driven = false)
    ∧ ∀ (pin : RestPin) (v : Option Half), (pin = .latchA ∨ pin = .latchB ∨ pin = .drvEn) →
      (s.door.pins.get (RestPin.idx pin)).driven = true → LogReady s →
      ∃ t, exec (.driveFault pin v) s = .next t ∧ t.door.latch = .fault ∧ t.door.driveHold = true ∧ Raised .latchFault s t
        ∧ Logged 0x04 0x00 ([2, if s.door.latch = .opening then 1 else if s.door.latch = .closing then 2 else 0]
            ++ leBytes 2 t.pwr.loadMv.toNat) s t
        ∧ ∀ k : Fin 7, k.val < 3 → (t.door.pins.get k).driven = false)
  ∧
  (
  (∀ s : State, mayMove s = true →
    (s.door.latch = .dwell → s.door.dead = none → s.door.motorLock = true → s.door.open_ = true →
      exec .dwellEnd s = .next (s.onDoor fun d => { d with latch := .waiting, holdOpen := false }))
    ∧ (∀ i : Instr, (i = .dwellEnd ∧ s.door.latch = .dwell ∧ s.door.dead = none ∧ s.door.motorLock = true ∧ s.door.open_ = false)
        ∨ (i = .closeRetry ∧ s.door.latch = .fault ∧ s.door.retryWait = true)
        ∨ (i = .deadTimeEnd ∧ s.door.dead = some .close) →
      ∃ t, exec i s = .next t ∧ t.door.latch = .closing ∧ t.door.pins.get 0 = .rest ∧ t.door.pins.get 1 = .active
        ∧ t.door.pins.get 2 = .active ∧ (i = .closeRetry → t.door.retried = true ∧ t.door.retryWait = false)
        ∧ (i = .deadTimeEnd → t.door.dead = none) ∧ t = { s with door := t.door })
    ∧ (s.door.latch = .dwell → s.door.dead = none → s.door.motorLock = false →
      ∃ t, exec .dwellEnd s = .next t ∧ t.door.latch = .idle ∧ t.door.byGrant = false ∧ t.door.holdOpen = false ∧ t.nv = s.nv)
    ∧ (s.door.dead = some .open_ → heldIdle s 2 = false →
      ∃ t, exec .deadTimeEnd s = .next t ∧ t.door.latch = .opening ∧ t.door.dead = none ∧ t.door.pins.get 0 = .active
        ∧ t.door.pins.get 1 = .rest ∧ t.door.pins.get 2 = .active ∧ t.door.seqTiming = s.door.timing
        ∧ t.door.seqMotor = s.door.motor ∧ t = { s with door := t.door, pwr := { s.pwr with loadMin := none } }))
  ∧ ∀ (pin : RestPin) (s : State), s.door.pins.get (RestPin.idx pin) = .letGo →
    exec (.letGoEnd pin) s = .next (s.onDoor fun d => { d with pins := d.pins.set (RestPin.idx pin) .z }))

/-- In running, with the log ready. An opening door raises EV_DOOR_OPEN and is logged, as forced with EV_DOOR_FORCED
when the latch is in state 0 or 6 and no handle was used within 2 s; it ends privacy. A closing door raises
EV_DOOR_CLOSED, is logged, and closes a lock that waits for it. A handle assertion raises EV_HANDLE, writes a DOOR
and an EXIT entry and opens an idle motor lock; its release raises EV_HANDLE and is logged. Privacy is set with
EV_PRIVACY and its entry. A tamper raises EV_TAMPER and is logged, which clears its latch; before the device runs it
is held with DURING_START; a deassertion only shows at the input. That a release is logged with code 4 as an assertion is, that a forced opening raises
EV_DOOR_OPEN too, and how the 2 s are counted, are the model's deductions. (R59, R170, R232, R233, Table 17-3, Table
18-1.) -/
def Obligations.DoorInputsRaiseAndLog : Prop :=
  (∀ s : State, s.phase = .running → s.boot.loader = false → LogReady s →
    let forced := (s.door.latch = .idle ∨ s.door.latch = .fault) ∧ restOk s = true ∧ s.door.handle = false
      ∧ ∀ k, s.door.handleTick = some k → k + 65536 < s.ao.rtc
    (s.door.open_ = false → s.door.privacy = false →
      ∃ t, exec (.doorSenseChange true) s = .next t ∧ Raised .doorOpen s t ∧ t.door = { s.door with open_ := true }
        ∧ (forced → Raised .doorForced s t ∧ Logged 0x05 0x00 [3] s t) ∧ (¬ forced → Logged 0x05 0x00 [1] s t))
    ∧ (s.door.open_ = false → s.door.privacy = true →
      ∃ t, exec (.doorSenseChange true) s = .next t ∧ Raised .doorOpen s t ∧ Raised .privacy s t
        ∧ t.door = { s.door with open_ := true, privacy := false })
    ∧ (s.door.open_ = true →
      ∃ t, exec (.doorSenseChange false) s = .next t ∧ Raised .doorClosed s t ∧ Logged 0x05 0x00 [2] s t ∧ t.door.open_ = false
        ∧ (s.door.latch = .waiting → s.door.dead = none → mayMove s = true → t.door.latch = .closing)
        ∧ (s.door.latch ≠ .waiting → t.door = { s.door with open_ := false }))
    ∧ (s.door.handle = false → s.nv.log.next + 2 < sealSeq →
      ∃ t, exec .handleAssert s = .next t ∧ Raised .handle s t ∧ t.nv.log.next = s.nv.log.next + 2 ∧ t.door.handle = true
        ∧ t.door.handleTick = some s.ao.rtc
        ∧ (∃ x y, (t.nv.log.entries.take 2) = [x, y] ∧ y.kind = 0x05 ∧ y.body = padTo 32 [4] ∧ x.kind = 0x02
          ∧ x.body = padTo 32 [BitVec.ofNat 8 (latchCode s)])
        ∧ (mayMove s = true → s.door.latch = .idle → heldIdle s 2 = false → t.door.latch = .opening ∧ t.door.byGrant = false))
    ∧ (s.door.handle = true →
      ∃ t, exec .handleRelease s = .next t ∧ Raised .handle s t ∧ Logged 0x05 0x00 [4] s t
        ∧ t.door = { s.door with handle := false, handleTick := some s.ao.rtc })
    ∧ (s.door.handle = true → s.door.open_ = false → s.door.privacy = false →
      ∃ t, exec .privacySet s = .next t ∧ Raised .privacy s t ∧ Logged 0x07 0x00 [1] s t
        ∧ t.door = { s.door with privacy := true })
    ∧ (s.ao.tamper = false → s.pwr.vddioOk = true →
      ∃ t, exec (.tamper true) s = .next t ∧ Raised .tamper s t ∧ Logged 0x06 0x00 [] s t ∧ t.ao.tamper = false
        ∧ t.door = { s.door with tamperIn := true })
    ∧ (s.pwr.vddioOk = true → exec (.tamper false) s = .next (s.onDoor fun d => { d with tamperIn := false }))
    ∧ (bits s.door.ledCfg 0 2 = 2 →
      exec (.ledBlinkPeriod .periodStart) s = .next (s.onDoor fun d => { d with ledOn := true, ledCur := d.ledCfg }))
    ∧ (bits s.door.ledCur 0 2 = 2 →
      exec (.ledBlinkPeriod .sinkEnd) s = .next (s.onDoor fun d => { d with ledOn := false })))
  ∧ ∀ s : State, (s.phase = .reset ∨ s.phase = .booting) → s.boot.loader = false → s.pwr.vddioOk = true →
    exec (.tamper true) s = .next ((s.onDoor fun d => { d with tamperIn := true }).onAo fun a =>
      { a with tamper := true, tamperStart := true })
    ∧ exec (.tamper false) s = .next (s.onDoor fun d => { d with tamperIn := false })

/-- LATCH_CMD with legal fields and the log ready writes a LATCH entry with the booth as its source and is answered
ST_OK: action 0 opens an idle motor lock with the dwell given, action 1 opens it to hold, and makes a running opening
lead to a hold with the timing that its sequence started with, action 2 clears latch state 6 and privacy. With DOOR_REST.OK 0 it is answered ST_REST_FLOAT, with an action above 2, a time of 0 for
action 0 or a byte 1 that is not 0 ST_BAD_PARAM, each without any other effect. DOOR_STATUS returns inputs, outputs,
the last verdict, latch state and privacy; before any verdict, the verdict fields are free values (log 14). That the
entry of actions 1 and 2 carries time 0 is the model's reading. (R51, R171, R227, R231, R233, Table 7-2, Table 11-7, Table
17-3.) -/
def Obligations.LatchCommandsOpenHoldAndRelease : Prop :=
  (∀ (p : Packet) (s : State), Serves op_latchCmd Needs.none p s →
    let a := (byteAt p.payload 0).toNat
    let ms := leField p.payload 2 2
    ((3 ≤ a ∨ byteAt p.payload 1 ≠ 0 ∨ (a = 0 ∧ ms = 0)) → exec (.latchCmd p) s = .next (replied p .badParam [] s))
    ∧ (a < 3 → byteAt p.payload 1 = 0 → (a = 0 → ms ≠ 0) → restOk s = false →
        exec (.latchCmd p) s = .next (replied p .restFloat [] s))
    ∧ (a < 3 → byteAt p.payload 1 = 0 → (a = 0 → ms ≠ 0) → restOk s = true → LogReady s →
      ∃ t, exec (.latchCmd p) s = .next t ∧ ReplyAdded p.src.booth p.tag .ok [] s t
        ∧ (a ≠ 2 → Logged 0x03 (0x10 ||| BitVec.ofNat 8 p.src.booth.val)
            ([BitVec.ofNat 8 a] ++ leBytes 2 (if a = 0 then ms else 0)) s t)
        ∧ (a < 2 → mayMove s = true → s.door.latch = .idle → heldIdle s 2 = false →
            t.door.latch = .opening ∧ t.door.holdOpen = (s.door.holdOpen || decide (a = 1))
            ∧ t.door.dwellMs = (if a = 0 then ms else 100 * bits s.door.timing 8 8))
        ∧ (a = 1 → mayMove s = true → s.door.latch = .opening → s.door.dead = none →
            t.door = { s.door with dwellMs := 100 * bits s.door.seqTiming 8 8, holdOpen := true, byGrant := false })
        ∧ (a = 2 → t.door.privacy = false ∧ t.door.latch ≠ .fault ∧ t.door.driveHold = false ∧ t.door.holdOpen = false)))
  ∧ ∀ (p : Packet) (s : State), Serves op_doorStatus Needs.none p s →
    ∃ code seq t, exec (.doorStatus p) s = .next t
      ∧ t = replied p .ok ([BitVec.ofNat 8 (inLevels s), BitVec.ofNat 8 (outLevels s), code,
          BitVec.ofNat 8 (latchCode s + 128 * bit s.door.privacy)] ++ leBytes 5 seq ++ zeros 3) { s with free := t.free }
      ∧ (∀ c n, s.vd.last = some (c, n) → code = c ∧ seq = n)

/-- A tracking pass in TRACK mode with pct the highest reading of the floor-setting blocks: VCORE falls by one level at
75 % or below with no pre-raise running, stays up to 85 %, and rises by three levels, at most to code 35, with
EV_VCORE_RAISE above that. At code 35 a reading above 85 % sets LIMIT, writes an error record of code 1 for the lowest
block code that reads so and raises EV_CANARY_LIMIT, once. A canary trip does the same at once. In FIXED mode no pass
is made: the level stays, and a due idle VIN reading is taken. A finished pre-raise releases the waiting blocks at its
level, and a PBUS transfer that waited for it runs. The current limit's flag follows the buck. (R25, R26, R27, R28,
R29, R31, R62, R69, R74, R377, Table 2-1, Table 18-2.) -/
def Obligations.TrackingFollowsTheCanaries : Prop :=
  (∀ (e : TrackEnv) (code pct : Nat) (s : State), s.phase = .running → s.boot.loader = false → bits s.pwr.trackCtrl 0 2 = 0 →
    s.pwr.level ≤ 35 → (code, pct) ∈ e.readings → floorSetting s code = true →
    (∀ r ∈ e.readings, floorSetting s r.1 = true → r.2 ≤ pct) →
    ∃ t, exec (.trackingPass e) s = .next t ∧ t.pwr.dieTemp = e.temp
      ∧ (pct ≤ 75 → s.pwr.releasing = 0 → t.pwr.level = s.pwr.level - 1)
      ∧ (75 < pct → pct ≤ 85 → t.pwr.level = s.pwr.level)
      ∧ (pct ≤ 85 → t.pwr.limit = false)
      ∧ (85 < pct → t.pwr.level = min 35 (s.pwr.level + 3))
      ∧ (85 < pct → s.pwr.level < 35 → Raised .vcoreRaise s t)
      ∧ (s.pwr.wakeDue = true → t.pwr.idleMv = e.vinMv ∧ t.pwr.wakeDue = false)
      ∧ t.pwr.gateReq = s.pwr.gateReq ∧ (pct ≤ 85 ∨ s.pwr.level < 35 → t.nv = s.nv))
  ∧ (∀ (b : Fin 11) (pct : Nat) (s : State), s.phase = .running → s.boot.loader = false → floorSetting s b.val = true → 85 < pct →
    (s.pwr.level < 35 → ∃ t, exec (.canaryTrip b pct) s = .next t ∧ OnlyBus { s with pwr := t.pwr } t
      ∧ t.pwr = { s.pwr with level := min 35 (s.pwr.level + 3), floorSrc := b.val } ∧ Raised .vcoreRaise s t)
    ∧ (35 ≤ s.pwr.level → s.pwr.limit = true →
      exec (.canaryTrip b pct) s = .next (s.onPwr fun p => { p with floorSrc := b.val }))
    ∧ (35 ≤ s.pwr.level → s.pwr.limit = false → s.err.aValid = false →
      ∃ t, exec (.canaryTrip b pct) s = .next t ∧ t.pwr = { s.pwr with limit := true, floorSrc := b.val }
        ∧ Raised .canaryLimit s t ∧ Raised .error s t ∧ t.err.aValid = true ∧ t.err.recA.code = 0x001
        ∧ t.err.recA.w2 = BitVec.ofNat 32 b.val ∧ t.err.recA.w3 = BitVec.ofNat 32 pct
        ∧ t.err.recA.time = BitVec.ofNat 32 (devSec s)))
  ∧ (∀ (e : TrackEnv) (code pct : Nat) (s : State), s.phase = .running → s.boot.loader = false → bits s.pwr.trackCtrl 0 2 = 0 →
    s.pwr.level = 35 → (code, pct) ∈ e.readings → floorSetting s code = true → 85 < pct →
    (∀ r ∈ e.readings, floorSetting s r.1 = true → 85 < r.2 → r = (code, pct) ∨ code < r.1) →
    ∃ t, exec (.trackingPass e) s = .next t ∧ t.pwr.level = 35 ∧ t.pwr.limit = true ∧ t.pwr.dieTemp = e.temp
      ∧ (s.pwr.limit = false → s.err.aValid = false → Raised .canaryLimit s t ∧ Raised .error s t ∧ t.err.aValid = true
          ∧ t.err.recA.code = 0x001 ∧ t.err.recA.w2 = BitVec.ofNat 32 code ∧ t.err.recA.w3 = BitVec.ofNat 32 pct
          ∧ t.err.recA.time = BitVec.ofNat 32 (devSec s))
      ∧ (s.pwr.limit = true → t.err.recA = s.err.recA ∧ t.err.recB = s.err.recB ∧ t.err.overflow = s.err.overflow))
  ∧ (∀ (e : TrackEnv) (s : State), s.phase = .running → bits s.pwr.trackCtrl 0 2 ≠ 0 →
    (s.pwr.wakeDue = false → exec (.trackingPass e) s = .next s)
    ∧ (s.pwr.wakeDue = true → ∃ t, exec (.trackingPass e) s = .next t ∧ t.pwr.level = s.pwr.level ∧ t.pwr.limit = s.pwr.limit
        ∧ t.pwr.dieTemp = s.pwr.dieTemp ∧ t.pwr.idleMv = e.vinMv ∧ t.pwr.wakeDue = false ∧ t.nv = s.nv))
  ∧ (∀ s : State, s.pwr.releasing ≠ 0 →
    let t := s.onPwr fun p => { p with level := max p.level p.preTarget, raising := false, preTarget := 0,
                                       gateStat := p.gateStat &&& ~~~ p.releasing, releasing := 0 }
    ((∀ x, s.pb.xfer = some x → x.wait = none) → exec .preRaiseDone s = .next t)
    ∧ ∀ x run, s.pb.xfer = some x → x.wait = some run → x.onBus = false → s.phase = .running → s.pwr.releasing.getLsbD 5 = true →
        exec .preRaiseDone s = exec (.pbusRetry run) (t.onPb fun b => { b with xfer := some { x with wait := none } }))
  ∧ ∀ (on : Bool) (s : State), s.phase ≠ .unpowered →
    exec (.vsysCurrentLimit on) s = .next (s.onPwr fun p => { p with vsysLimit := on })

/-- In a slot that brings a TIME or REVOKE car, with the radio up and no lease held: without a conflicting request the
five blocks are leased; with one that SP_KEEP_OVERRIDE covers they are leased and EV_GATE_OVERRIDE is raised; with
any other, EV_GATE_BLOCKED is raised and nothing else happens. The end or expiry of a lease clears lease, override
and pending requests; a pending request for a block of the chain gates it, and so is every block gated again that was
taken under override. An expiry that meets a pending request or an override discards the frame in progress with
EV_CAR_ABORTED; with neither the frame goes on. That a lease is all or none is the model's deduction. (R74, R76, R77,
R78, R79, R304, Table 4-7, Table 10-4.) -/
def Obligations.LeasesHoldTheRadioChain : Prop :=
  (∀ (pl : SlotPlan) (s : State), radioUp s = true → s.boot.loader = false → s.pwr.leased = 0 →
    (pl.types.getLsbD 1 = true ∨ pl.types.getLsbD 4 = true ∨ pl.types.getLsbD 5 = true) →
    (s.pwr.gateReq.truncate 5 &&& ~~~ (overrideBits s) ≠ (0 : BitVec 5) →
      ∃ t, exec (.leaseStart pl) s = .next t ∧ Raised .gateBlocked s t ∧ OnlyBus s t)
    ∧ (s.pwr.gateReq.truncate 5 &&& ~~~ (overrideBits s) = (0 : BitVec 5) →
      ∃ t, exec (.leaseStart pl) s = .next t ∧ t.pwr.leased = 0x1F ∧ t.pwr.override_ = s.pwr.gateReq.truncate 5
        ∧ t.pwr.gateReq = s.pwr.gateReq ∧ (s.pwr.gateReq.truncate 5 ≠ (0 : BitVec 5) → Raised .gateOverride s t)
        ∧ t.nv = s.nv ∧ t.door.latch = s.door.latch))
  ∧ (∀ (i : Instr) (s : State), (i = .leaseEnd ∨ i = .leaseExpire) → s.pwr.leased ≠ 0 →
    ∃ t, exec i s = .next t ∧ t.pwr.leased = 0 ∧ t.pwr.override_ = 0 ∧ t.pwr.gatePend = 0 ∧ t.pwr.gateReq = s.pwr.gateReq
      ∧ ∀ n, n < 5 → s.pwr.gateReq.getLsbD n = true → (s.pwr.gatePend.getLsbD n = true ∨ s.pwr.override_.getLsbD n = true) →
          t.pwr.gateStat.getLsbD n = true)
  ∧ ∀ s : State, s.pwr.leased ≠ 0 → s.boot.loader = false → s.rx.frame ≠ none →
    ((s.pwr.gatePend ≠ 0 ∨ s.pwr.override_ ≠ 0) →
      ∃ t, exec .leaseExpire s = .next t ∧ t.rx.frame = none ∧ Raised .carAborted s t)
    ∧ (s.pwr.gatePend = 0 → s.pwr.override_ = 0 → s.rx.window ≠ none →
      ∃ t, exec .leaseExpire s = .next t ∧ t.rx.frame = s.rx.frame ∧ t.rx.window = s.rx.window)

/-- With the radio up, the reference present, no window, no background calibration, and a usable calibration entry with
which the retune locks: a legal DC_LISTEN, or a wanted slot while listening is not stopped, opens its window: DATACAST
on the channel, locked, the delay lines empty, RMS and envelope at 0, COEX_PRI high when a TIME or REVOKE car is
expected, no reply yet. A DC_LISTEN of a bad channel or time is answered ST_BAD_PARAM; one behind another window
waits. With COEX_EN and GNT_WAIT and the grant low, the window waits in STANDBY until the grant rises; where no entry
is usable and the calibration fails then, the window ends with EV_CAL_FAIL. At its end the radio returns, to STANDBY
when another window follows, the listen command gets its counts, partial cars go when the carousel receiver is gated,
and a window that never opened is missed with EV_COEX_DENIED. DC_STOP ends the window, discards its frame with
EV_CAR_ABORTED, and no slot opens one until DC_START. That the listen commands queue in order is the model's reading.
(R238, R240, R241, R243, R246, R256, R257, R266, R268, R282, R309, R330.) -/
def Obligations.DatacastWindowsOpenAndEnd : Prop :=
  let opened (s : State) (w : Window) (t : State) : Prop :=
    t.rx.mode = .datacast ∧ t.rx.inputV = false ∧ t.rx.chan = w.chan ∧ t.rx.window = some { w with opened := true }
      ∧ t.rx.frame = none ∧ t.rx.coexReq = s.rx.coexCfg.getLsbD 0
      ∧ t.rx.coexPri = (s.rx.coexCfg.getLsbD 0 && (w.types.getLsbD 1 || w.types.getLsbD 4 || w.types.getLsbD 5))
      ∧ Tuned .datacast (chanKhz w.chan) s t ∧ t.nv = s.nv ∧ ∀ b, (t.booth b).replies = (s.booth b).replies
  let idle (s : State) : Prop := radioUp s = true ∧ s.rx.window = none ∧ s.rx.listens = [] ∧ s.rx.calBg = none ∧ s.rx.refLost = false
  (∀ (p : Packet) (env : WindowEnv) (s : State), Serves op_dcListen (needsRadio s) p s →
    let chan : Half := BitVec.ofNat 16 (leField p.payload 0 2)
    let ms := leField p.payload 2 2
    (chanOk chan = false ∨ ms = 0 ∨ 10000 < ms → exec (.dcListen p env) s = .next (replied p .badParam [] s))
    ∧ (chanOk chan = true → 1 ≤ ms → ms ≤ 10000 →
      (s.rx.window ≠ none → exec (.dcListen p env) s = .next ((accepted op_dcListen.op p s).onRx fun r =>
        { r with listens := r.listens ++ [{ booth := p.src.booth, tag := p.tag, chan := chan, ms := ms, env := env }] }))
      ∧ (idle s → usable s (.dc chan) = true → env.cal.good → (s.rx.coexCfg.getLsbD 0 = false ∨ env.gnt = true) →
        ∃ t, exec (.dcListen p env) s = .next t ∧ t.cmd.svc = (accepted op_dcListen.op p s).cmd.svc
          ∧ opened s (freshWindow chan 0 (expected s chan ms) (some (p.src.booth, p.tag)) env.another none) t)))
  ∧ (∀ (pl : SlotPlan) (env : WindowEnv) (s : State),
    let w := freshWindow pl.chan pl.mast pl.types none (pl.another || env.another) (planOf s pl)
    (s.rx.stopped = true → exec (.listenWindowOpen pl env) s = .next s)
    ∧ (slotWanted s pl = false → exec (.listenWindowOpen pl env) s = .next s)
    ∧ (idle s → s.rx.stopped = false → chanOk pl.chan = true → slotWanted s pl = true → heldOff s &&& 0x01F = 0 →
      usable s (.dc pl.chan) = true → env.cal.good →
      ((s.rx.coexCfg.getLsbD 0 = false ∨ env.gnt = true) →
        ∃ t, exec (.listenWindowOpen pl env) s = .next t ∧ opened s w t)
      ∧ (s.rx.coexCfg.getLsbD 0 = true → s.rx.coexCfg.getLsbD 1 = true → env.gnt = false →
        ∃ t, exec (.listenWindowOpen pl env) s = .next t ∧ t.rx.mode = .standby ∧ t.rx.coexReq = true ∧ t.rx.window = some w)))
  ∧ (∀ (w : Window) (s : State), s.rx.window = some w →
    (∀ cal back : CalRun, w.opened = false → s.rx.coexReq = true → s.rx.refLost = false → (heldOff s).getLsbD 2 = false →
      (usable s (.dc w.chan) = true → cal.good →
        ∃ t, exec (.coexGrant cal back) s = .next t ∧ t.rx.mode = .datacast ∧ t.rx.chan = w.chan
          ∧ t.rx.window = some { w with opened := true } ∧ Tuned .datacast (chanKhz w.chan) s t ∧ t.nv = s.nv)
      ∧ (usable s (.dc w.chan) = false → cal.locks = false → s.rx.listens = [] → s.boot.loader = false →
        ∃ t, exec (.coexGrant cal back) s = .next t ∧ t.rx.window = none ∧ Raised .calFail s t))
    ∧ ∀ cal : CalRun, (s.rx.frame ≠ none →
        exec (.windowEnd cal) s = .next (s.onRx fun r => { r with window := some { w with ending := true } }))
      ∧ (s.rx.frame = none → s.fm.hold = none → s.rx.listens = [] →
        ∃ t, exec (.windowEnd cal) s = .next t ∧ t.rx.window = none ∧ t.rx.mode = (if w.another then .standby else .sleep)
          ∧ t.rx.coexReq = false ∧ t.rx.coexPri = false
          ∧ (∀ b tag, w.cmd = some (b, tag) → ReplyAdded b tag .ok (leBytes 2 w.frames ++ leBytes 2 w.cars) s t)
          ∧ (s.pwr.leased = 0 → s.pwr.gateStat.getLsbD 4 = false → t.car.partials = [])
          ∧ (w.opened = false → s.rx.coexReq = true → s.boot.loader = false → Raised .coexDenied s t)))
  ∧ (∀ (p : Packet) (back : CalRun) (s : State), Serves op_dcStop Needs.none p s →
    ∃ t, exec (.dcStop p back) s = .next t ∧ t.rx.stopped = true ∧ t.rx.window = none ∧ t.rx.listens = []
      ∧ (t.booth p.src.booth).replies.getLast? = some { tag := p.tag, status := .ok, payload := [], refusal := false }
      ∧ (s.rx.window ≠ none → s.rx.frame ≠ none → t.rx.frame = none ∧ Raised .carAborted s t
          ∧ (s.car.partials = [] → t.car.counters.get 6 = satInc 0xFFFFFFFF (s.car.counters.get 6))))
  ∧ ∀ (p : Packet) (s : State), Serves op_dcStart Needs.none p s →
    exec (.dcStart p) s = .next (replied p .ok [] (s.onRx fun r => { r with stopped := false }))

/-- A loss of lock in a datacast window raises EV_SYN_UNLOCK and discards the frame with EV_CAR_ABORTED; the calibration
that follows keeps the window, or, when it fails, raises EV_CAL_FAIL and ends it. A loss of a needed reference
raises EV_REF_LOSS, clears REF_OK, LOCK and both clock outputs and parks the radio in STANDBY; its return raises
EV_REF_OK and resumes an open window, else a held station, by a retune, else SLEEP. A lost CLKFB raises EV_DLL_UNLOCK
and clears DLL_LOCK alone. A background calibration in STANDBY, or from SLEEP before a window, stores its entry when
it locks and raises EV_CAL_FAIL when it does not. An asserted blanking input, by its polarity, is noted in LISTEN when
it is enabled, and makes the present symbol of a frame an erasure; its release keeps zeros for 33 samples more; outside
LISTEN only the level changes. Blanking for 10 ms raises EV_BLANK_LONG once per window. A saturated frond raises
EV_FRD_SAT once per datacast window and once per second of FM. A missed deadline in datacast discards the frame, under
FM mutes the lost audio samples, and writes an error record with code 0x020, the path and the samples lost. (R240,
R242, R243, R246, R249, R250, R252, R253, R258, R265, R303, R376.) -/
def Obligations.RadioLossesBlankingAndDeadlinesAreMet : Prop :=
  (
  (∀ (cal back : CalRun) (w : Window) (s : State), s.rx.lock = true → s.boot.loader = false → s.rx.mode = .datacast →
    s.rx.window = some w → w.ending = false → s.rx.inputV = false → chanOk s.rx.chan = true → s.rx.refLost = false →
    (heldOff s).getLsbD 2 = false →
    ∃ t, exec (.synUnlock cal back) s = .next t ∧ Raised .synUnlock s t ∧ t.rx.frame = none
      ∧ (s.rx.frame ≠ none → Raised .carAborted s t
          ∧ (s.car.partials = [] → t.car.counters.get 6 = satInc 0xFFFFFFFF (s.car.counters.get 6)))
      ∧ (cal.locks = true → t.rx.lock = true ∧ t.rx.mode = .datacast ∧ t.rx.window = some w)
      ∧ (cal.locks = false → s.rx.listens = [] → t.rx.window = none ∧ Raised .calFail s t))
  ∧ (∀ s : State, needRef s = true → s.rx.refLost = false → s.boot.loader = false → s.rx.window = none →
    ∃ t, exec .refLoss s = .next t ∧ Raised .refLoss s t ∧ t.rx.refLost = true ∧ t.rx.refOk = false ∧ t.rx.lock = false
      ∧ t.rx.clk0On = false ∧ t.rx.clk1On = false ∧ t.rx.mode = .standby ∧ t.rx.frame = none ∧ t.nv = s.nv)
  ∧ (∀ (cal back : CalRun) (s : State), s.rx.refLost = true → s.boot.loader = false →
    ∃ t, exec (.refReturn cal back) s = .next t ∧ Raised .refOk s t ∧ t.rx.refLost = false
      ∧ (∀ w, s.rx.window = some w → w.opened = true → usable s (.dc w.chan) = true → cal.good → (heldOff s).getLsbD 2 = false →
          t.rx.mode = .datacast ∧ t.rx.chan = w.chan ∧ Tuned .datacast (chanKhz w.chan) s t ∧ t.rx.refOk = true ∧ t.nv = s.nv)
      ∧ (∀ h, s.rx.window = none → s.fm.hold = some h → usable s (fmKey h.freq) = true → back.good → (heldOff s).getLsbD 2 = false →
          t.rx.mode = .fm ∧ t.rx.chan = BitVec.ofNat 16 h.freq ∧ Tuned .fm (fmLoKhz h.freq) s t ∧ t.rx.refOk = true ∧ t.nv = s.nv)
      ∧ (s.rx.window = none → s.fm.hold = none → t.rx.mode = .sleep ∧ t.nv = s.nv))
  ∧ (∀ s : State, s.rx.dllLock = true → s.boot.loader = false →
    ∃ t, exec .dllUnlock s = .next t ∧ Raised .dllUnlock s t ∧ t.rx = { s.rx with dllLock := false }
      ∧ OnlyBus { s with rx := t.rx } t)
  ∧ ∀ (chan : Half) (cal : CalRun) (s : State), s.boot.loader = false →
    ((s.rx.mode = .standby ∨ (s.rx.mode = .sleep ∧ radioUp s = true ∧ s.rx.stopped = false)) → s.rx.refLost = false →
      s.rx.window = none → (heldOff s).getLsbD 2 = false → chanOk chan = true → usable s (.dc chan) = false →
      cal.entryOk = true → cal.bandOk = true →
      ∃ t, exec (.calBackground chan cal) s = .next t ∧ t.rx.mode = .calibrating ∧ t.rx.calBg = some chan ∧ t.rx.lock = false
        ∧ t.nv = s.nv)
    ∧ (s.rx.mode = .calibrating → s.rx.calBg = some chan →
      ∃ t, exec (.calBackground chan cal) s = .next t ∧ t.rx.mode = .standby ∧ t.rx.calBg = none
        ∧ (cal.locks = true → { key := .dc chan, pvt := cal.pvt, acq := cal.acq, gain := cal.gain, temp := cal.temp, crcOk := true }
            ∈ t.nv.calTab)
        ∧ (cal.locks = false → Raised .calFail s t ∧ t.nv = s.nv)))
  ∧
  (
  (∀ (pin : BlankPin) (s : State),
    let low (p : BlankPin) : Bool := s.rx.coexCfg.getLsbD (match p with | .a => 8 | .b => 9)
    let put (on : Bool) : State := s.onRx fun r =>
      match pin with | .a => { r with blankA := on != low .a } | .b => { r with blankB := on != low .b }
    let listens := s.rx.mode = .datacast ∨ s.rx.mode = .fm
    let on := s.rx.coexCfg.getLsbD (match pin with | .a => 4 | .b => 5)
    (¬ listens → exec (.blankAssert pin) s = .next (put true) ∧ exec (.blankRelease pin) s = .next (put false))
    ∧ (listens → on = true → ∃ t, exec (.blankAssert pin) s = .next t ∧ t.rx.blankA = (put true).rx.blankA
        ∧ t.rx.blankB = (put true).rx.blankB ∧ t.rx.blanks.head?.map (·.2) = some s.ao.rtc
        ∧ ∀ f, s.rx.frame = some f → ∃ e, t.rx.frame = some { f with erased := e } ∧ symbolNow s f ∈ e ∧ ∀ x ∈ f.erased, x ∈ e)
    ∧ (blanking s = true → blanking (put false) = false →
        ∃ t, exec (.blankRelease pin) s = .next t ∧ t.rx.blankA = (put false).rx.blankA ∧ t.rx.blankB = (put false).rx.blankB
          ∧ t.jug = { s.jug with chain := { s.jug.chain with blankTail := 33 } }))
  ∧ (∀ (w : Window) (s : State), s.rx.window = some w → s.boot.loader = false → s.rx.mode = .datacast → w.opened = true →
    blanking s = true →
    (w.blankLong = true → exec .blankLong s = .next s)
    ∧ (w.blankLong = false → ∃ t, exec .blankLong s = .next t ∧ Raised .blankLong s t
        ∧ t.rx = { s.rx with window := some { w with blankLong := true } } ∧ OnlyBus { s with rx := t.rx } t))
  ∧ (∀ s : State, s.boot.loader = false →
    (∀ w, s.rx.mode = .datacast → s.rx.window = some w →
      (w.saturated = true → exec .frondSaturation s = .next s)
      ∧ (w.saturated = false → ∃ t, exec .frondSaturation s = .next t ∧ Raised .frdSat s t
          ∧ t.rx = { s.rx with window := some { w with saturated := true } } ∧ OnlyBus { s with rx := t.rx } t))
    ∧ (s.rx.mode = .fm →
      ((∃ k, s.rx.satTick = some k ∧ s.ao.rtc < k + 32768) → exec .frondSaturation s = .next s)
      ∧ ((∀ k, s.rx.satTick = some k → k + 32768 ≤ s.ao.rtc) → ∃ t, exec .frondSaturation s = .next t ∧ Raised .frdSat s t
          ∧ t.rx = { s.rx with satTick := some s.ao.rtc } ∧ OnlyBus { s with rx := t.rx } t)))
  ∧ ∀ (lost : Nat) (back : CalRun) (s : State), s.boot.loader = false → s.err.aValid = false →
    let entry (path : Word) : ErrRec :=
      { code := 0x020, nested := s.err.bValid, time := BitVec.ofNat 32 (devSec s), w2 := path, w3 := BitVec.ofNat 32 lost }
    (∀ w, s.rx.mode = .datacast → s.rx.window = some w → w.ending = false →
      ∃ t, exec (.demodLate false lost back) s = .next t ∧ Raised .error s t ∧ t.rx = { s.rx with frame := none }
        ∧ t.err = { s.err with aValid := true, recA := entry 1 })
    ∧ (s.rx.mode = .fm → s.rx.window = none →
      ∃ t, exec (.demodLate true lost back) s = .next t ∧ Raised .error s t ∧ t.rx = s.rx
        ∧ t.jug = { s.jug with chain := { s.jug.chain with mute := max s.jug.chain.mute lost } }
        ∧ t.err = { s.err with aValid := true, recA := entry 2 }))

/-- In an open window a good header without blanking starts a frame, which keeps the frequency correction and the timing
of its training; any other raises EV_DC_HDR_FAIL; a preamble that began within 100 µs of the radio's readiness, or whose
training blanking has touched, acquires nothing. At its end a frame
that is not good raises EV_DC_CRC_FAIL; a good frame of another property counts a stranger. A good frame of this
property starts a partial car with fragment 0 of several, and the last fragment of a two-fragment car completes it:
with every check passed the car is queued and its verification starts. A differing FRAG_LAST, or a second of
silence, discards the partial car and counts it. DC_STATUS and DC_COUNTERS return their fields, DC_SUBSCRIBE takes a
mask of types 1 to 10. (R298, R300, R301, R302, R303, R304, R305, R308, R309, R315, R324, R328.) -/
def Obligations.FramesBecomeCars : Prop :=
  (∀ (h : BitVec 24) (q : Acquire) (w : Window) (s : State), s.rx.mode = .datacast → s.rx.frame = none → s.rx.window = some w →
    w.opened = true → s.boot.loader = false → gateOpen s 1 = true → gateOpen s 3 = true →
    let ok := headerGood h = true ∧ headerBlanked s = false
    (q.readyUs < 100 ∨ trainingBlanked s = true → exec (.dcHeaderDecode h q) s = .next s)
    ∧ (100 ≤ q.readyUs → trainingBlanked s = false →
      (ok → exec (.dcHeaderDecode h q) s = .next (s.onRx fun r =>
        { r with frame := some {
            mode := h.toNat % 4, nsym := h.toNat / 4 % 512, seed := h.toNat / 4096 % 16, start := s.ao.rtc - 92
            ref := instantBack s 92, corrHz := (q.coarseHz + 4000) % 8000 - 4000 + q.fineHz, timing := q.timing, erased := [] } }))
      ∧ (¬ ok → ∃ t, exec (.dcHeaderDecode h q) s = .next t ∧ Raised .dcHdrFail s t ∧ OnlyBus s t)))
  ∧ (∀ (f : Frame) (w : Window) (env : FrameEnv) (s : State), s.rx.frame = some f → s.rx.window = some w → w.ending = false →
    s.boot.loader = false → env.ecc = [] →
    let l := linkBytes f env.bits
    let mast : Half := BitVec.ofNat 16 (leField l 4 2)
    let tag : Half := BitVec.ofNat 16 (leField l 8 2)
    ∃ t, exec (.dcFrameEnd env) s = .next t ∧ t.rx.frame = none ∧ t.rx.evm = evmField env.s ∧ t.rx.rssi = byteOfInt env.rssi
      ∧ (frameGood f l = false → Raised .dcCrcFail s t ∧ t.rx.lqi = 0 ∧ t.car = s.car)
      ∧ (frameGood f l = true → t.rx.lqi = lqiField f.mode true env.s ∧ t.rx.lastMast = mast
        ∧ t.rx.lastSeq = BitVec.ofNat 16 (leField l 6 2))
      ∧ (frameGood f l = true → (cellWritten s 1 = false ∨ leField l 0 4 ≠ propertyId s) →
          t.car = { s.car with counters := s.car.counters.set 0 (satInc 0xFFFFFFFF (s.car.counters.get 0)) })
      ∧ (frameGood f l = true → cellWritten s 1 = true → leField l 0 4 = propertyId s → (heldOff s).getLsbD 4 = false →
        ((∀ x ∈ s.car.partials, ¬ (x.mast = mast ∧ x.tag = tag)) → s.car.partials.length < 4 → fragIdx l = 0 → fragLast l ≠ 0 →
          fragLen l = 512 → ∃ x : Partial, t.car = { s.car with partials := s.car.partials ++ [x] } ∧ x.mast = mast ∧ x.tag = tag
            ∧ x.last = fragLast l ∧ x.frags = [(0, sub l 12 512)] ∧ x.ref = f.ref)
        ∧ (∀ x d, s.car.partials = [x] → x.mast = mast → x.tag = tag → x.last = 1 → x.frags = [(0, d)] → fragIdx l = 1 →
          fragLast l = 1 → carCheck s (d ++ sub l 12 (fragLen l)) = none → s.car.queue = [] → s.keep.hash.cur = none →
            t.car.partials = [] ∧ t.car.queue = [{ bytes := d ++ sub l 12 (fragLen l), mast := mast, ref := x.ref, cmd := none }]
            ∧ t.keep.hash.cur = some .car ∧ t.rx.window = some { w with
                frames := w.frames + 1, cars := w.cars + 1, heard := true
                got := w.got ||| (1#16 <<< carTyp (d ++ sub l 12 (fragLen l))) })
        ∧ (∀ x, s.car.partials = [x] → x.mast = mast → x.tag = tag → x.last ≠ fragLast l → fragIdx l ≠ fragLast l → fragLen l ≠ 512 →
            t.car = { s.car with partials := [], counters := s.car.counters.set 6 (satInc 0xFFFFFFFF (s.car.counters.get 6)) })))
  ∧ (∀ (mast tag : Half) (x : Partial) (s : State), x ∈ s.car.partials → x.mast = mast → x.tag = tag →
    exec (.carPartialTimeout mast tag) s = .next (s.onCar fun c => { c with
      partials := c.partials.filter (fun y => !(y.mast == mast && y.tag == tag)),
      counters := c.counters.set 6 (satInc 0xFFFFFFFF (c.counters.get 6)) }))
  ∧ (∀ (p : Packet) (s : State),
    (Serves op_dcStatus Needs.none p s → exec (.dcStatus p) s = .next (replied p .ok
      (leBytes 2 s.rx.chan.toNat ++ [s.rx.evm, s.rx.lqi, BitVec.ofNat 8 s.rx.mode.code] ++ zeros 3 ++ leBytes 2 s.rx.lastSeq.toNat
        ++ leBytes 2 s.rx.lastMast.toNat ++ zeros 4) s))
    ∧ (Serves op_dcCounters Needs.none p s →
        exec (.dcCounters p) s = .next (replied p .ok (s.car.counters.toList.flatMap (leBytes 4)) s))
    ∧ (Serves op_dcSubscribe Needs.none p s →
      let m : Half := BitVec.ofNat 16 (leField p.payload 0 2)
      (m &&& 0xF801 ≠ 0 → exec (.dcSubscribe p) s = .next (replied p .badParam [] s))
      ∧ (m &&& 0xF801 = 0 → exec (.dcSubscribe p) s
          = .next (replied p .ok [] (s.onBooth p.src.booth fun x => { x with cars := m })))))

/-- A DC_INJECT chunk that does not continue the car is answered ST_BAD_PARAM and drops it, one that does is kept; the
last one is checked: a failing car is answered with its reason and counted, a passing one is queued. At the end of
verification a car with a bad signature is rejected with reason 2, a repeat with 3, a rival with 3, a frozen
sequence with 6 and EV_SEQ_FROZEN when the type has not raised it yet. A NOTICE that no booth takes is committed: stored sequence, EV_CAR_APPLIED, CAR entry. A
REVOKE_DELTA next in sequence adds and removes its IDs; one that leaves a gap changes no ID, sets the set behind
with EV_REVOKE_BEHIND; an ID without a place makes the set full with EV_REVOKE_FULL. An ID goes to a candidate bucket
with no more IDs than the other, or to the stash, and has no place only when both buckets and the stash of 512 are
full. A learned window whose last needed car this was closes. The end of a sweep leaves the IDs seen, with
EV_REVOKE_CURRENT. The MAST_ID of an injected car is a free value (log 15). (R18, R21, R39, R193, R220, R315, R317,
R321, R322, R328, R330, Table 15-2.) -/
def Obligations.CarsAreCheckedVerifiedAndApplied : Prop :=
  (∀ (p : Packet) (s : State), Serves op_dcInject Needs.none p s →
    let off := leField p.payload 0 2
    let total := leField p.payload 2 2
    let d := p.payload.drop 4
    let fits (held : Bytes) := 1 ≤ total ∧ total ≤ 4096 ∧ off = held.length ∧ off + d.length ≤ total
    (s.cmd.inject = none → ¬ fits [] → exec (.dcInject p) s = .next (replied p .badParam [] s))
    ∧ (∀ held, s.cmd.inject = some (held, total) → ¬ fits held →
        exec (.dcInject p) s = .next (replied p .badParam [] (s.onCmd fun c => { c with inject := none })))
    ∧ (∀ held, s.cmd.inject = some (held, total) ∨ (s.cmd.inject = none ∧ held = []) → fits held → off + d.length < total →
        exec (.dcInject p) s = .next (replied p .ok [] (s.onCmd fun c => { c with inject := some (held ++ d, total) })))
    ∧ (∀ held, s.cmd.inject = some (held, total) ∨ (s.cmd.inject = none ∧ held = []) → fits held → off + d.length = total →
      (∀ x, carCheck s (held ++ d) = some x →
        ∃ t, exec (.dcInject p) s = .next t ∧ ReplyAdded p.src.booth p.tag x.status x.reason s t ∧ t.cmd.inject = none
          ∧ t.car.queue = s.car.queue ∧ t.nv = s.nv
          ∧ ∀ c : Counter, t.car.counters.get c.idx
              = if x.counter = some c then satInc 0xFFFFFFFF (s.car.counters.get c.idx) else s.car.counters.get c.idx)
      ∧ (carCheck s (held ++ d) = none → s.car.queue = [] → s.keep.hash.cur = none →
        ∃ t m, exec (.dcInject p) s = .next t ∧ t.keep.hash.cur = some .car ∧ t.nv = s.nv
          ∧ t.car.queue = [{ bytes := held ++ d, mast := m, ref := Instant.zero, cmd := some (p.src.booth, p.tag) }]
          ∧ t.cmd = { (accepted op_dcInject.op p s).cmd with inject := none })))
  ∧ (∀ (env : CarEnv) (q : QCar) (rest : List QCar) (s : State), s.phase = .running → s.boot.loader = false →
    s.keep.held = false → s.keep.hash.cur = some .car → s.car.queue = q :: rest → env.ecc = [] → WindowStays s →
    ∃ t, exec (.carVerified env) s = .next t
      ∧ (∀ reason c, (carSigsOk q.bytes = false ∧ reason = 0x02 ∧ c = Counter.sigReject)
          ∨ (carSigsOk q.bytes = true ∧ carOrder s true q.bytes = .duplicate ∧ reason = 0x03 ∧ c = Counter.duplicate)
          ∨ (carSigsOk q.bytes = true ∧ carOrder s true q.bytes = .rival ∧ reason = 0x03 ∧ c = Counter.rival)
          ∨ (carSigsOk q.bytes = true ∧ carOrder s true q.bytes = .frozen ∧ reason = 0x06 ∧ c = Counter.seqFrozen) →
        t.nv = s.nv ∧ t.car.queue = rest ∧ t.car.counters = s.car.counters.set c.idx (satInc 0xFFFFFFFF (s.car.counters.get c.idx))
        ∧ ∀ b tag, q.cmd = some (b, tag) → ReplyAdded b tag .carReject [reason] s t)
      ∧ (carSigsOk q.bytes = true → carOrder s true q.bytes = .frozen → storedSeq s (carTyp q.bytes) (carPage q.bytes) = 0xFFFFFFFF →
          s.car.frozenTold.getLsbD (carTyp q.bytes) = false → Raised .seqFrozen s t)
      ∧ (carSigsOk q.bytes = true → carOrder s true q.bytes = .ok →
        (carTyp q.bytes = 7 → (∀ b, takesCar s q.bytes b = false) → LogReady s →
          Raised .carApplied s t ∧ storedSeq t 7 0 = carSeq q.bytes ∧ storedHash t 7 0 = carHash q.bytes
          ∧ Logged 0x08 0x40 ([7] ++ leBytes 2 q.mast.toNat ++ leBytes 4 (carSeq q.bytes) ++ leBytes 2 (carEpochOf q.bytes)
              ++ leBytes 2 0) s t
          ∧ ∀ b tag, q.cmd = some (b, tag) → ReplyAdded b tag .ok [] s t)
        ∧ (carTyp q.bytes = 4 → s.nv.deltaSeq + 2 ≤ carSeq q.bytes → t.nv.revoked = s.nv.revoked ∧ t.nv.behind = true
          ∧ t.nv.deltaSeq = s.nv.deltaSeq ∧ Raised .revokeBehind s t
          ∧ ∀ b tag, q.cmd = some (b, tag) → ReplyAdded b tag .carReject [0x06] s t)
        ∧ (carTyp q.bytes = 4 → carSeq q.bytes < s.nv.deltaSeq + 2 → 
          let pl := carPayload q.bytes
          let adds := idsOf (leField pl 0 2) (pl.drop 4)
          let rems := idsOf (leField pl 2 2) (pl.drop (4 + 6 * leField pl 0 2))
          t.nv.deltaSeq = carSeq q.bytes ∧ t.nv.pendRemove = [] ∧ Raised .carApplied s t
          ∧ ((addIds adds s).2 = true → ∀ x, x ∈ t.nv.revoked ↔ (x ∈ adds ∨ x ∈ s.nv.revoked) ∧ x ∉ rems)
          ∧ ((addIds adds s).2 = false → t.nv.revFull = true ∧ Raised .revokeFull s t))))
  ∧ (∀ (x : Nat) (s : State), placeOf s x = none ↔ bucketRoom s (bucketOf s x false) = false
      ∧ bucketRoom s (bucketOf s x true) = false ∧ 512 ≤ standing s none)
  ∧ (∀ (x : Nat) (b : BitVec 16) (s : State), placeOf s x = some (some b) →
      ∃ w, b = bucketOf s x w ∧ ∀ v, standing s (some b) ≤ standing s (some (bucketOf s x v)))
  ∧ (∀ (env : CarEnv) (q : QCar) (w : Window) (s : State), s.phase = .running → s.boot.loader = false → s.keep.held = false →
      s.keep.hash.cur = some .car → s.car.queue = [q] → env.ecc = [] → carSigsOk q.bytes = true → carOrder s true q.bytes = .ok →
      carTyp q.bytes = 7 → s.rx.window = some w → w.cmd = none → w.opened = true → s.rx.frame = none → s.rx.listens = [] →
      w.types ≠ 0 → w.types &&& ~~~ (w.applied ||| 0x80) = 0 →
      ∃ t, exec (.carVerified env) s = .next t ∧ t.rx.window = none ∧ Raised .carApplied s t)
  ∧ ∀ (sn : Snap) (s : State), s.phase = .running → s.boot.loader = false → s.car.snap = some sn → sn.sweeping = true →
    ∃ t, exec .snapshotSweepDone s = .next t ∧ Raised .revokeCurrent s t ∧ t.car = { s.car with snap := none }
      ∧ t.nv.revoked = s.nv.revoked.filter (fun x => sn.seen.contains x) ∧ t.nv.deltaSeq = sn.deltaSeq
      ∧ t.nv.snapDone = sn.seq ∧ t.nv.behind = false ∧ t.nv.revFull = (s.nv.revFull && !sn.allPlaced)
      ∧ t.nv.keys = s.nv.keys ∧ t.mem = s.mem

/-- A booth other than the holder is answered ST_IN_USE with the holder. FM_TUNE with nothing in its way gives the hold,
starts the decoder anew and listens on the station; its measurement answers it, and a failed calibration answers
0x80. FM_SCAN holds FM for its duration and lists its candidates; then the hold is as before. FM_STOP ends reception
and hold with EV_FM_ENDED, or does nothing when nobody holds FM. A check tunes to the best candidate 6 dB above the
held station; two groups with the PI keep it with EV_AF_SWITCH, else the previous frequency returns with
EV_AF_REJECT and the candidate is bad for 60 s. (R241, R243, R332, R333, R337, R338, R339, R346, R348, Table 16-1,
Table 16-2, Table 16-7.) -/
def Obligations.FmIsHeldByOneBooth : Prop :=
  let free (s : State) : Prop := s.fm.tune = none ∧ s.fm.scan = none ∧ s.fm.waiting = [] ∧ s.fm.afTry = none
  (∀ (p : Packet) (cal : CalRun) (s : State), Serves op_fmTune (needsFm ((byteAt p.payload 2).getLsbD 0) s) p s →
    let freq := leField p.payload 0 2
    let flags := byteAt p.payload 2
    let ok := 6400 ≤ freq ∧ freq ≤ 10800 ∧ flags.getLsbD 7 = false ∧ byteAt p.payload 3 = 0
    (¬ ok → exec (.fmTune p cal) s = .next (replied p .badParam [] s))
    ∧ (∀ h, ok → s.fm.hold = some h → h.booth ≠ p.src.booth →
        exec (.fmTune p cal) s = .next (replied p .inUse [BitVec.ofNat 8 h.booth.val] s))
    ∧ (ok → free s → (∀ h, s.fm.hold = some h → h.booth = p.src.booth) → fmReady s = true → usable s (fmKey freq) = true →
        cal.good →
        ∃ t, exec (.fmTune p cal) s = .next t ∧ Tuned .fm (fmLoKhz freq) s t ∧ t.fm.hold = some { booth := p.src.booth, freq := freq, flags := flags }
          ∧ (∃ x, t.fm.tune = some x ∧ x.booth = p.src.booth ∧ x.tag = p.tag ∧ x.calFailed = false)
          ∧ t.fm.i2s = (flags.getLsbD 0 && !s.pwr.battEnd) ∧ t.fm.rds = Rds.start ∧ t.rx.mode = .fm ∧ t.rx.inputV = true
          ∧ t.rx.chan = BitVec.ofNat 16 freq ∧ t.cmd.svc = (accepted op_fmTune.op p s).cmd.svc
          ∧ (∀ b, (t.booth b).replies = (s.booth b).replies) ∧ t.nv = s.nv))
  ∧ (∀ (x : FmTune) (m : FmMeasure) (s : State), s.fm.tune = some x → s.fm.waiting = [] →
    (x.calFailed = true → ∃ t, exec (.fmTuneDone m) s = .next t ∧ t.fm.tune = none
      ∧ ReplyAdded x.booth x.tag .ok [0x80, 0, 0, 0] s t)
    ∧ (x.calFailed = false → s.rx.mode = .fm → ∃ t, exec (.fmTuneDone m) s = .next t ∧ t.fm.tune = none
      ∧ ReplyAdded x.booth x.tag .ok [byteOfInt m.rssi, BitVec.ofNat 8 (min 255 m.snr), BitVec.ofNat 8 (bit m.pilot), 0] s t
      ∧ t.rx.rssi = byteOfInt m.rssi ∧ t.fm.hold = s.fm.hold))
  ∧ (∀ (p : Packet) (cal : CalRun) (s : State), Serves op_fmScan (needsFm false s) p s →
    let start := leField p.payload 0 2
    let stop := leField p.payload 2 2
    let step := (byteAt p.payload 4).toNat
    let job (p : Packet) (x y z : Nat) : FmScan :=
      { booth := p.src.booth, tag := p.tag, start := x, stop := y, step := z, thr := (byteAt p.payload 5).toInt, prev := none }
    let ok := 6400 ≤ start ∧ start ≤ stop ∧ stop ≤ 10800 ∧ (step = 5 ∨ step = 10 ∨ step = 20) ∧ (stop - start) % step = 0
    (¬ ok → exec (.fmScan p cal) s = .next (replied p .badParam [] s))
    ∧ (∀ h, ok → s.fm.hold = some h → h.booth ≠ p.src.booth →
        exec (.fmScan p cal) s = .next (replied p .inUse [BitVec.ofNat 8 h.booth.val] s))
    ∧ (ok → free s → s.fm.hold = none → ∃ t, exec (.fmScan p cal) s = .next t
        ∧ t.fm.hold = some { booth := p.src.booth, freq := start, flags := 0 } ∧ t.fm.tune = none
        ∧ t.fm.scan = some (job p start stop step)
        ∧ t.cmd.svc = (accepted op_fmScan.op p s).cmd.svc ∧ (fmReady s = true → t.rx.mode = .fm)))
  ∧ (∀ (c : FmScan) (rssi : List Int) (snr : List Nat) (cals : List CalRun) (back : CalRun) (s : State),
    s.fm.scan = some c → s.fm.hold ≠ none → s.fm.waiting = [] → lifeCycle s ≠ .retired → s.rx.mode = .fm →
    (∀ i, i < scanSteps c → usable s (fmKey (c.start + i * c.step)) = true) → (∀ x ∈ cals, x.good) →
    ∃ t, exec (.fmScanDone rssi snr cals back) s = .next t ∧ ReplyAdded c.booth c.tag .ok (scanList c rssi snr) s t
      ∧ t.fm.scan = none ∧ t.fm.hold = c.prev ∧ (c.prev = none → t.rx.mode = .sleep))
  ∧ (∀ (p : Packet) (s : State), Serves op_fmStop Needs.none p s →
    (s.fm.hold = none → exec (.fmStop p) s = .next (replied p .ok [] s))
    ∧ ∀ h, s.fm.hold = some h →
      (h.booth ≠ p.src.booth → p.src.booth ≠ 0 →
        exec (.fmStop p) s = .next (replied p .inUse [BitVec.ofNat 8 h.booth.val] s))
      ∧ ((h.booth = p.src.booth ∨ p.src.booth = 0) → free s →
        ∃ t, exec (.fmStop p) s = .next t ∧ t.fm.hold = none ∧ t.fm.i2s = false ∧ Raised .fmEnded s t
          ∧ ReplyAdded p.src.booth p.tag .ok [] s t ∧ (s.rx.mode = .fm → t.rx.mode = .sleep)))
  ∧ (∀ (h : FmHold) (pi : Nat) (held : Int) (rs : List Int) (cals : List CalRun) (back : CalRun) (s : State),
    s.fm.hold = some h → s.fm.rds.pi = some pi → checkDue s = true →
    (∀ f ∈ afCandidates h s, usable s (fmKey f) = true) → (∀ x ∈ cals, x.good) →
    (afCandidates h s = [] →
      exec (.afCheck held rs cals back) s = .next (s.onFm fun x => { x with afTick := some s.ao.rtc }))
    ∧ ((∀ f r, bestReading ((afCandidates h s).zip rs) = some (f, r) → r < held + 6) →
      ∃ t, exec (.afCheck held rs cals back) s = .next t ∧ t.fm.hold = some h ∧ t.fm.afTry = none
        ∧ t.fm.afTick = some s.ao.rtc ∧ t.fm.af = s.fm.af)
    ∧ ∀ f r, bestReading ((afCandidates h s).zip rs) = some (f, r) → held + 6 ≤ r →
      ∃ t, exec (.afCheck held rs cals back) s = .next t ∧ t.fm.hold = some { h with freq := f }
        ∧ t.fm.afTry = some (h.freq, pi, 0) ∧ t.fm.afTick = some s.ao.rtc ∧ t.rx.chan = BitVec.ofNat 16 f)
  ∧ ∀ (h : FmHold) (prev pi n : Nat) (back : CalRun) (s : State), s.fm.hold = some h → s.fm.afTry = some (prev, pi, n) → s.boot.loader = false →
    (2 ≤ n → ∃ t, exec (.afVerify back) s = .next t ∧ Raised .afSwitch s t ∧ t.fm.afTry = none ∧ t.fm.hold = some h)
    ∧ (n < 2 → ∃ t, exec (.afVerify back) s = .next t ∧ Raised .afReject s t ∧ t.fm.afTry = none
        ∧ t.fm.hold = some { h with freq := prev } ∧ (h.freq, s.ao.rtc + 60 * 32768) ∈ t.fm.afBad)

/-- RDS_SUBSCRIBE sets the mask and the RAW flag, or is answered ST_BAD_PARAM. Three error-free blocks acquire
synchronisation with EV_RDS_SYNC, and its loss raises EV_RDS_LOST. A PI seen twice in a row is confirmed. A group of
a type that is not decoded reaches its one subscriber as a RAW record at the place of its record count, which grows
by one, with EV_RDS_DELIVERED. No group changes device time, its band or whether it is known. While FM is not
listened to, a group changes nothing. (R19, R341, R342, R343, R344, R349, Table 16-5, Table 16-6.) -/
def Obligations.RdsGroupsFillRecords : Prop :=
  (∀ (p : Packet) (s : State), Serves op_rdsSubscribe Needs.none p s →
    let m := leField p.payload 0 4
    let ok := m < 65536 ∧ (byteAt p.payload 4).toNat ≤ 1 ∧ sub p.payload 5 3 = [0, 0, 0]
    (¬ ok → exec (.rdsSubscribe p) s = .next (replied p .badParam [] s))
    ∧ (ok → exec (.rdsSubscribe p) s = .next (replied p .ok [] (s.onBooth p.src.booth fun x =>
        { x with rdsMask := BitVec.ofNat 16 m, rdsRaw := decide (byteAt p.payload 4 = 1) }))))
  ∧ (∀ (raw : RawGroup) (s : State),
    (s.rx.mode ≠ .fm ∨ s.fm.hold = none ∨ s.fm.scan ≠ none → exec (.rdsGroup raw) s = .next s)
    ∧ ∃ t, exec (.rdsGroup raw) s = .next t ∧ t.ao.fine = s.ao.fine ∧ t.ao.known = s.ao.known ∧ t.ao.u = s.ao.u)
  ∧ (∀ (raw : RawGroup) (s : State), s.rx.mode = .fm → s.fm.hold ≠ none → s.fm.scan = none → s.boot.loader = false →
    raw.ecc = [] →
    let g := decodeGroup s raw
    (s.fm.rds.sync = false → s.fm.rds.run = 0 → blockClean g.a = true → blockClean g.b = true → blockClean g.c = true →
      ∃ t, exec (.rdsGroup raw) s = .next t ∧ t.fm.rds.sync = true ∧ Raised .rdsSync s t)
    ∧ (s.fm.rds.sync = true → s.fm.rds.erased = 19 → g.a.status = .erased → g.a.offE = false →
      ∃ t, exec (.rdsGroup raw) s = .next t ∧ t.fm.rds.sync = false ∧ Raised .rdsLost s t ∧ t.fm.hold = s.fm.hold)
    ∧ (∀ c, s.fm.rds.sync = true → s.fm.afTry = none → blockOk g.a = true → blockOk g.b = true →
        s.fm.rds.piSeen.last = some (g.a.data.toNat, c) →
      ∃ t, exec (.rdsGroup raw) s = .next t ∧ t.fm.rds.pi = some g.a.data.toNat)
    ∧ (∀ prev pi n, s.fm.rds.sync = true → s.fm.afTry = some (prev, pi, n) → n < 2 → blockOk g.b = true → blockOk g.a = true →
      ∃ t, exec (.rdsGroup raw) s = .next t
        ∧ t.fm.afTry = some (prev, pi, if g.a.data.toNat = pi then n + 1 else 0) ∧ t.fm.hold = s.fm.hold)
    ∧ (∀ (b : Booth) (page : Nat), s.fm.rds.sync = true → s.fm.rds.erased < 19 → s.fm.afTry = none → blockOk g.b = true → s.err.bad = [] →
        g.a.offE = false → g.c.offE = false → g.d.offE = false → isDecoded g = false → subscribers g s = [b] → (s.booth b).rdsCount < 512 →
        walk s b true (0xE0000 + (s.booth b).rdsCount * 0x80) 128 = .ok [page] →
      ∃ t, exec (.rdsGroup raw) s = .next t ∧ (t.booth b).rdsCount = (s.booth b).rdsCount + 1 ∧ pends .rdsDelivered b t = true
        ∧ memRead t.mem (page + (s.booth b).rdsCount * 0x80 % 4096) 5 = leBytes 4 (s.booth b).rdsCount ++ [0x01]))
  ∧ (∀ (raw : RawGroup) (s : State),
    (syndrome raw.a = offsetWord 0 → blankedIn s (blockStart s raw.ageUs 0) (blockStart s raw.ageUs 1) = false →
      (decodeGroup s raw).a = { data := blockData raw.a, status := .good, alt := false, offE := false })
    ∧ (blankedIn s (blockStart s raw.ageUs 0) (blockStart s raw.ageUs 1) = true → (decodeGroup s raw).a.status = .erased))
  ∧ ∀ s : State, s.fm.rds.sync = true → s.boot.loader = false →
    ∃ t, exec .rdsSyncLost s = .next t ∧ Raised .rdsLost s t ∧ t.fm.rds.sync = false ∧ t.fm.hold = s.fm.hold
      ∧ OnlyBus { s with fm := t.fm } t

/-- TIME_GET answers device time in seconds, U in ms, the sources byte and three reserved bytes, and changes nothing
else. An announced leap takes place when device time reaches the second after LEAP_AT: an insertion takes one second
back, a deletion passes over one, and the announcement clears; before that, or with none announced, nothing happens.
When the crystal stops, U has grown by the rate of its bin up to now, the RC source takes over without an anchor,
and an FW_CHECK record with check number 1 is written where a record is free; when it returns, U has grown at the
rate of the RC source and the crystal drives the RTC. LOG_INFO answers the oldest and newest sequence, COVERED of
the latest checkpoint, and the flags. LOG_READ of 1 to 15 entries from a held sequence answers the held entries from
there in ascending order, 64 bytes each; ST_NOT_FOUND when the first is not held, ST_BAD_PARAM for another count.
LOG_CHECKPOINT answers the earliest held checkpoint at or above the sequence, or ST_NOT_FOUND. LOG_RELEASE above the
newest sequence is ST_NOT_FOUND; at or below the mark it changes nothing; above it, the mark moves, the overwritten
flag clears unless the entry that is written overwrites an unexported one, and a RELEASE entry is written.
CHECKPOINT_TIMER starts a checkpoint over an uncovered newest entry on a free engine, waits for a busy one, and does
nothing when all is covered; a finished one is signed with the key of slot 4 and stored, the latest 256 being kept,
with EV_LOG_CHECKPOINT. (R350, R353, R358, R361, R364, R365, R366, R367, R396, Table 17-1, Table 17-2, Table 17-5.) -/
def Obligations.TimeAndLogAreReadAndKept : Prop :=
  (
  (∀ (p : Packet) (s : State), Serves op_timeGet Needs.none p s →
    exec (.timeGet p) s = .next (replied p .ok (leBytes 4 (devSec s) ++ leBytes 4 (uMs s) ++ [sources s] ++ zeros 3) s))
  ∧ (∀ s : State, timeKnown s = true → s.ao.leap ≠ 0 → (s.ao.leapAt + 1) * fineSec ≤ s.ao.fine →
    ∃ t, exec .leapSecond s = .next t
      ∧ t = s.onAo (fun a => { a with leap := 0, fine := t.ao.fine })
      ∧ t.ao.fine % fineSec = s.ao.fine % fineSec
      ∧ (s.ao.leap = 1 → devSec t + 1 = devSec s) ∧ (s.ao.leap ≠ 1 → devSec t = devSec s + 1))
  ∧ (∀ s : State, (timeKnown s = false ∨ s.ao.leap = 0 ∨ s.ao.fine < (s.ao.leapAt + 1) * fineSec) →
    exec .leapSecond s = .next s)
  ∧ (∀ s : State, aoRuns s = true → s.ao.rcSource = false → (s.err.aValid = false ∨ s.err.bValid = false) →
    ∃ t, exec .x32Loss s = .next t
      ∧ t.ao = { s.ao with
          rcSource := true, rcTold := alive s, anchor := none, passTick := s.ao.rtc,
          u := s.ao.u.map fun u => min uMax (u + rate144 s s.ao.bin * (s.ao.rtc - s.ao.passTick)) }
      ∧ t = { s with ao := t.ao, err := t.err, hb := t.hb, cmd := t.cmd }
      ∧ (alive s = true → s.boot.loader = false → s.err.aValid = false →
          t.err = { s.err with
            aValid := true,
            recA := { code := 0x030, nested := s.err.bValid, time := BitVec.ofNat 32 (devSec s), w2 := 1, w3 := 0 } }
          ∧ Raised .error s t))
  ∧ ∀ s : State, aoRuns s = true → s.ao.rcSource = true →
    exec .x32Return s = .next (s.onAo fun a => { a with
      rcSource := false, passTick := a.rtc,
      u := a.u.map fun u => min uMax (u + 144 * 30000000 * (a.rtc - a.passTick)) }))
  ∧
  (
  (∀ (p : Packet) (s : State), Serves op_logInfo Needs.none p s →
    exec (.logInfo p) s = .next (replied p .ok
      (leBytes 5 (oldestSeq s) ++ leBytes 5 (newestSeq s) ++ leBytes 5 (coveredSeq s) ++ [logFlags s]) s)
    ∧ (logFlags s).getLsbD 0 = s.nv.log.sealed_ ∧ (logFlags s).getLsbD 1 = logFull s
    ∧ (logFlags s).getLsbD 2 = s.nv.log.overwritten)
  ∧ (∀ (p : Packet) (first n : Nat) (s : State), Serves op_logRead Needs.none p s →
    leField p.payload 0 5 = first → (byteAt p.payload 5).toNat = n →
    ((n = 0 ∨ 15 < n) → exec (.logRead p []) s = .next (replied p .badParam [] s))
    ∧ (1 ≤ n → n ≤ 15 → (∀ e ∈ s.nv.log.entries, e.seq ≠ first) → exec (.logRead p []) s = .next (replied p .notFound [] s))
    ∧ (1 ≤ n → n ≤ 15 → (∃ e ∈ s.nv.log.entries, e.seq = first) → s.err.bad = [] →
        exec (.logRead p []) s = .next (replied p .ok
          ((s.nv.log.entries.filter fun e => decide (first ≤ e.seq ∧ e.seq < first + n)).reverse.flatMap LogEntry.bytes) s)))
  ∧ (∀ (p : Packet) (s : State), Serves op_logCheckpoint Needs.none p s →
    let cs := s.nv.log.checkpoints.reverse
    (∀ (i : Nat) (c : Checkpoint), cs[i]? = some c → leField p.payload 0 5 ≤ c.covered →
        (∀ (j : Nat) (d : Checkpoint), j < i → cs[j]? = some d → d.covered < leField p.payload 0 5) →
        exec (.logCheckpoint p) s = .next (replied p .ok (c.signed ++ padTo 64 c.sig) s))
    ∧ ((∀ c ∈ s.nv.log.checkpoints, c.covered < leField p.payload 0 5) →
        exec (.logCheckpoint p) s = .next (replied p .notFound [] s)))
  ∧ (∀ (p : Packet) (q : Nat) (s : State), Serves op_logRelease Needs.none p s → leField p.payload 0 5 = q →
    ((s.nv.log.entries = [] ∨ newestSeq s < q) → exec (.logRelease p) s = .next (replied p .notFound [] s))
    ∧ (s.nv.log.entries ≠ [] → q ≤ newestSeq s → q + 1 ≤ s.nv.log.release →
        exec (.logRelease p) s = .next (replied p .ok [] s))
    ∧ (s.nv.log.entries ≠ [] → q ≤ newestSeq s → s.nv.log.release < q + 1 → LogReady s →
        ∃ t, exec (.logRelease p) s = .next t ∧ t.nv.log.release = q + 1
          ∧ t.nv.log.overwritten = decide (16384 ≤ s.nv.log.next ∧ q + 1 ≤ s.nv.log.next - 16384)
          ∧ Logged 0x12 (srcBooth p.src.booth) (leBytes 5 q) s t ∧ t.nv = { s.nv with log := t.nv.log }
          ∧ ReplyAdded p.src.booth p.tag .ok [] s t ∧ t.mem = s.mem ∧ t.ao = s.ao ∧ t.door = s.door ∧ t.vd = s.vd))
  ∧ (∀ s : State, alive s = true → cpAllowed s = true → s.nv.log.entries ≠ [] →
    ((∀ c ∈ s.nv.log.checkpoints.head?, c.covered < newestSeq s) →
      (s.keep.hash.cur = none → s.car.queue = [] →
        exec .checkpointTimer s = .next (s.onKeep fun k =>
          { k with cpWanted := false, hash := { k.hash with cur := some (.checkpoint (checkpointNow s)) } }))
      ∧ (s.keep.hash.cur ≠ none → exec .checkpointTimer s = .next (s.onKeep fun k => { k with cpWanted := true })))
    ∧ ∀ c, s.nv.log.checkpoints.head? = some c → newestSeq s ≤ c.covered → exec .checkpointTimer s = .next s)
  ∧ ∀ (c : Checkpoint) (s : State), alive s = true → s.boot.loader = false → s.keep.hash.cur = some (.checkpoint c) →
    ∃ t, exec .checkpointSigned s = .next t
      ∧ t.nv = { s.nv with log := { s.nv.log with
          checkpoints := ({ c with sig := edSign (keySlot s 4).key c.signed } :: s.nv.log.checkpoints).take 256 } }
      ∧ Raised .logCheckpoint s t ∧ (s.car.queue = [] → s.keep.cpWanted = false → s.keep.hash.queue = [] → t.keep.hash.cur = none)
      ∧ t = { s with hb := t.hb, cmd := t.cmd, keep := t.keep, nv := t.nv })

/-- A page passes its walk exactly when both entries have even parity, clear reserved bits and V, the level-1 target
lies in the level-2 pool and the level-2 target in booth data, and, for a write, W is set. With no uncorrectable
word: a STORE_READ of 1 to 1024 bytes within the 1 MiB whose pages all pass returns the bytes at the translated
addresses and changes nothing else; a STORE_WRITE whose pages all pass writes its bytes there, the later of two
bytes at one address, and no other byte; one from a word boundary that a reset or power loss cuts after some 64-bit words
has written those alone, and has no reply. When a page faults, the first one, no byte moves, BTH_WALK_FAULT, the reply
and EV_WALK_FAULT tell it. A transfer past the end, or a bad count, is ST_BAD_PARAM. For a booth 0 to 7 that does
not drain, with no uncorrectable word. Level 1, V 0: the entry alone is written. Level 1, V 1, naming a table of the
pool that no other valid level-1 entry names: the entry is written, and the named table is cleared first unless the
old valid entry named it. Level 2: the entry is written into the table that the booth's valid level-1 entry names,
wherever its own target lies. A reserved bit or PAR set, a table outside the pool or named by another entry, an
invalid level-1 entry, or a booth, level or index out of range is ST_BAD_PARAM and writes nothing. (R178, R180,
R181, R182, R183, R184, R185, R186, R190, Table 9-2, Table 9-3.) -/
def Obligations.BoothTablesRuleTheStores : Prop :=
  (
  (∀ (b : Booth) (write : Bool) (k a : Nat) (s : State), s.err.bad = [] →
    let e1 := entryAt s (l1Addr b k)
    let e2 := entryAt s (entryTarget 0 e1 + k % 16 * 8)
    (walkPage s b write k = .ok [a] ↔
      (popCount 64 e1 % 2 = 0 ∧ Nat.land e1 0x7FFFFFFF0000007E = 0 ∧ e1 % 2 = 1
        ∧ 0x00070400 ≤ entryTarget 0 e1 ∧ entryTarget 0 e1 < 0x00080000
        ∧ popCount 64 e2 % 2 = 0 ∧ Nat.land e2 0x7FFFFFFF00000FFC = 0 ∧ e2 % 2 = 1
        ∧ (0x00040000 ≤ entryTarget 1 e2 ∧ entryTarget 1 e2 < 0x00070000
            ∨ 0x40700000 ≤ entryTarget 1 e2 ∧ entryTarget 1 e2 < 0x407F0000)
        ∧ (write = true → e2 / 2 % 2 = 1) ∧ a = entryTarget 1 e2)))
  ∧ (∀ (p : Packet) (va n : Nat) (s : State), Serves op_storeRead Needs.none p s → s.err.bad = [] →
    leField p.payload 0 4 = va → leField p.payload 4 2 = n →
    ((n = 0 ∨ 1024 < n ∨ 0x100000 < va + n) → exec (.storeRead p []) s = .next (replied p .badParam [] s))
    ∧ (1 ≤ n → n ≤ 1024 → va + n ≤ 0x100000 → AllPass s p.src.booth false va n →
        exec (.storeRead p []) s
          = .next (replied p .ok ((List.range n).map fun i => memGet s.mem (translated s p.src.booth (va + i))) s))
    ∧ ∀ k kind level, 1 ≤ n → n ≤ 1024 → va + n ≤ 0x100000 → FaultsAt s p.src.booth false va n k kind level →
        (s.booth p.src.booth).mode = .enabled →
        ∃ t, exec (.storeRead p []) s = .next t ∧ FaultTold p va k kind level s t)
  ∧ ∀ (p : Packet) (va n : Nat) (s : State), Serves op_storeWrite Needs.none p s → s.err.bad = [] →
    leField p.payload 0 4 = va → p.payload.length = n + 4 →
    (0x100000 < va + n → exec (.storeWrite p [] none) s = .next (replied p .badParam [] s))
    ∧ (va + n ≤ 0x100000 → AllPass s p.src.booth true va n → s.mem.wf = true →
        ∃ t, exec (.storeWrite p [] none) s = .next t
          ∧ t = replied p .ok [] { s with mem := t.mem, err := { s.err with told := t.err.told } }
          ∧ (∀ i, i < n → (∀ j, i < j → j < n → translated s p.src.booth (va + j) ≠ translated s p.src.booth (va + i)) →
              memGet t.mem (translated s p.src.booth (va + i)) = byteAt p.payload (4 + i))
          ∧ ∀ a, (∀ i, i < n → translated s p.src.booth (va + i) ≠ a) → memGet t.mem a = memGet s.mem a)
    ∧ ∀ k kind level, va + n ≤ 0x100000 → FaultsAt s p.src.booth true va n k kind level →
        (s.booth p.src.booth).mode = .enabled →
        ∃ t, exec (.storeWrite p [] none) s = .next t ∧ FaultTold p va k kind level s t)
  ∧ (∀ (p : Packet) (va n c : Nat) (s : State), Serves op_storeWrite Needs.none p s → s.err.bad = [] →
    leField p.payload 0 4 = va → p.payload.length = n + 4 → va + n ≤ 0x100000 → AllPass s p.src.booth true va n →
    s.mem.wf = true → va % 8 = 0 →
    ∃ t, exec (.storeWrite p [] (some c)) s = .next t ∧ t.cmd = (accepted op_storeWrite.op p s).cmd
      ∧ (∀ i, i < n → i < 8 * c →
          (∀ j, i < j → j < n → j < 8 * c → translated s p.src.booth (va + j) ≠ translated s p.src.booth (va + i)) →
          memGet t.mem (translated s p.src.booth (va + i)) = byteAt p.payload (4 + i))
      ∧ ∀ a, (∀ i, i < n → i < 8 * c → translated s p.src.booth (va + i) ≠ a) → memGet t.mem a = memGet s.mem a)
  ∧
  (
  ∀ (p : Packet) (b : Booth) (i e : Nat) (s : State), Serves op_tableSet Needs.none p s → s.err.bad = [] → s.mem.wf = true →
    byteAt p.payload 0 = BitVec.ofNat 8 b.val → leField p.payload 2 2 = i → leField p.payload 4 8 = e →
    (s.booth b).mode ≠ .draining →
    let wrote (a : Nat) (t : State) : Prop :=
      t = replied p .ok [] { s with mem := t.mem, err := { s.err with told := t.err.told } }
        ∧ memRead t.mem a 8 = leBytes 8 (e + popCount 63 e % 2 * 2 ^ 63)
    let a := 0x00070000 + b.val * 0x80 + 8 * i
    let l2 := entryTarget 0 e
    let bad : Prop := exec (.tableSet p) s = .next (replied p .badParam [] s)
    (byteAt p.payload 1 = 1 → i < 16 → e < 2 ^ 63 → Nat.land e 0x7FFFFFFF0000007E = 0 →
      (e % 2 = 0 → ∃ t, exec (.tableSet p) s = .next t ∧ wrote a t
        ∧ ∀ x, (x < a ∨ a + 8 ≤ x) → memGet t.mem x = memGet s.mem x)
      ∧ (e % 2 = 1 → 0x00070400 ≤ l2 → l2 < 0x00080000 →
          (∀ c, c < 128 → 0x00070000 + 8 * c ≠ a → entryAt s (0x00070000 + 8 * c) % 2 = 1 →
            entryTarget 0 (entryAt s (0x00070000 + 8 * c)) ≠ l2) →
          let same := entryAt s a % 2 = 1 ∧ entryTarget 0 (entryAt s a) = l2
          ∃ t, exec (.tableSet p) s = .next t ∧ wrote a t
            ∧ (∀ x, l2 ≤ x → x < l2 + 128 → memGet t.mem x = if same then memGet s.mem x else 0)
            ∧ ∀ x, (x < a ∨ a + 8 ≤ x) → (x < l2 ∨ l2 + 128 ≤ x) → memGet t.mem x = memGet s.mem x)
      ∧ (e % 2 = 1 → (l2 < 0x00070400 ∨ 0x00080000 ≤ l2) → bad)
      ∧ ∀ c, c < 128 → 0x00070000 + 8 * c ≠ a → entryAt s (0x00070000 + 8 * c) % 2 = 1 →
          entryTarget 0 (entryAt s (0x00070000 + 8 * c)) = l2 → e % 2 = 1 → bad)
    ∧ (byteAt p.payload 1 = 2 → i < 256 → e < 2 ^ 63 → Nat.land e 0x7FFFFFFF00000FFC = 0 →
      let t1 := entryAt s (l1Addr b i)
      let w := entryTarget 0 t1 + i % 16 * 8
      (t1 % 2 = 1 → 0x00070400 ≤ entryTarget 0 t1 → entryTarget 0 t1 < 0x00080000 →
        ∃ t, exec (.tableSet p) s = .next t ∧ wrote w t
          ∧ ∀ x, (x < w ∨ w + 8 ≤ x) → memGet t.mem x = memGet s.mem x)
      ∧ ((t1 % 2 = 0 ∨ entryTarget 0 t1 < 0x00070400 ∨ 0x00080000 ≤ entryTarget 0 t1) → bad))
    ∧ (byteAt p.payload 1 = 1 → i < 16 → (2 ^ 63 ≤ e ∨ Nat.land e 0x7FFFFFFF0000007E ≠ 0) → bad)
    ∧ (byteAt p.payload 1 = 2 → i < 256 → (2 ^ 63 ≤ e ∨ Nat.land e 0x7FFFFFFF00000FFC ≠ 0) → bad)
    ∧ ((byteAt p.payload 1 ≠ 1 ∧ byteAt p.payload 1 ≠ 2) ∨ (byteAt p.payload 1 = 1 ∧ 16 ≤ i) ∨ (byteAt p.payload 1 = 2 ∧ 256 ≤ i) → bad)
    ∧ ∀ q : Packet, Serves op_tableSet Needs.none q s → 8 ≤ (byteAt q.payload 0).toNat →
        exec (.tableSet q) s = .next (replied q .badParam [] s))

/-- With no uncorrectable word and no routine of the booth in flight. RTN_LOAD within the area writes the code, CODE_LEN
grows to its end, the routine is loaded; RTN_READ and RTN_WRITE within the window read and write it; outside their
ranges, or while a routine of the booth is in flight, ST_BAD_PARAM. RTN_START without ALLOW is ST_PRIV; with a bad
entry ST_BAD_PARAM; else its run begins at once as R273 says, when none runs or waits, paused while demodulation
needs the Juggler, or it waits behind. Without BATT_END, RTN_RUN_BEGIN begins the first waiting one. ROUTINE_RESUME ends the pause. At
MAX_MS a run that is not paused traps with cause 0x04, even with a vector set. (R142, R145, R270, R271, R272, R273,
R278, R279, R280, Table 7-2, Table 8-8, Table 13-5.) -/
def Obligations.RoutinesAreLoadedStartedAndLimited : Prop :=
  (∀ (p : Packet) (off : Nat) (s : State), Serves op_rtnLoad (needsJuggler s) p s → s.err.bad = [] → s.jug.code.wf = true →
    leField p.payload 0 2 = off →
    let b := p.src.booth
    let n := p.payload.length - 2
    (off % 4 = 0 → off + n ≤ 2048 → routineBusy s b = false →
      ∃ t, exec (.rtnLoad p) s = .next t
        ∧ t = replied p .ok [] ({ s with jug := { s.jug with code := t.jug.code }, err := { s.err with told := t.err.told } }.onBooth b
            fun x => { x with codeLen := max x.codeLen (off + n), rtnState := .loaded })
        ∧ ∀ a, memGet t.jug.code a = if b.val * 2048 + off ≤ a ∧ a < b.val * 2048 + off + n
            then byteAt p.payload (a - (b.val * 2048 + off) + 2) else memGet s.jug.code a)
    ∧ ((off % 4 ≠ 0 ∨ 2048 < off + n ∨ routineBusy s b = true) → exec (.rtnLoad p) s = .next (replied p .badParam [] s)))
  ∧ (∀ (p : Packet) (off n : Nat) (s : State), Serves op_rtnRead (needsJuggler s) p s → s.err.bad = [] →
    leField p.payload 0 2 = off → leField p.payload 2 2 = n →
    (1 ≤ n → n ≤ 1024 → off + n ≤ 4096 → routineBusy s p.src.booth = false →
      exec (.rtnRead p) s = .next (replied p .ok (memRead s.jug.win (p.src.booth.val * 4096 + off) n) s))
    ∧ ((n = 0 ∨ 1024 < n ∨ 4096 < off + n ∨ routineBusy s p.src.booth = true) →
      exec (.rtnRead p) s = .next (replied p .badParam [] s)))
  ∧ (∀ (p : Packet) (off : Nat) (s : State), Serves op_rtnWrite (needsJuggler s) p s → s.err.bad = [] → s.jug.win.wf = true →
    leField p.payload 0 2 = off →
    let base := p.src.booth.val * 4096 + off
    let n := p.payload.length - 2
    (off + n ≤ 4096 → routineBusy s p.src.booth = false →
      ∃ t, exec (.rtnWrite p) s = .next t
        ∧ t = replied p .ok [] { s with jug := { s.jug with win := t.jug.win }, err := { s.err with told := t.err.told } }
        ∧ ∀ a, memGet t.jug.win a = if base ≤ a ∧ a < base + n then byteAt p.payload (a - base + 2) else memGet s.jug.win a)
    ∧ ((4096 < off + n ∨ routineBusy s p.src.booth = true) → exec (.rtnWrite p) s = .next (replied p .badParam [] s)))
  ∧ (∀ (p : Packet) (entry : Nat) (s : State), Serves op_rtnStart (needsRun s) p s → routineBusy s p.src.booth = false →
    leField p.payload 0 2 = entry →
    let b := p.src.booth
    let allowed := s.jug.rtnCfg.getLsbD (8 + b.val)
    let good := entry % 4 = 0 ∧ entry < (s.booth b).codeLen ∧ leField p.payload 2 2 = 0
    (allowed = false → exec (.rtnStart p) s = .next (replied p .priv [] s))
    ∧ (allowed = true → ¬ good → exec (.rtnStart p) s = .next (replied p .badParam [] s))
    ∧ (allowed = true → good → s.jug.run = none → s.jug.queue = [] →
        ∃ x t, exec (.rtnStart p) s = .next t ∧ FreshRun b p.tag entry (p.payload.drop 4) x
          ∧ t.jug = { s.jug with run := some x, paused := decide (s.rx.mode = .datacast ∨ s.rx.mode = .fm) }
          ∧ (t.booth b).rtnState = .running ∧ t.cmd.svc = (accepted op_rtnStart.op p s).cmd.svc
          ∧ t.mem = s.mem ∧ t.nv = s.nv ∧ t.vd = s.vd ∧ t.keep = s.keep)
    ∧ (allowed = true → good → (s.jug.run ≠ none ∨ s.jug.queue ≠ []) →
        exec (.rtnStart p) s = .next ((accepted op_rtnStart.op p s).onJug fun j =>
          { j with queue := j.queue ++ [{ booth := b, tag := p.tag, entry := entry, args := p.payload.drop 4 }] })))
  ∧ (∀ (q : RtnReq) (qs : List RtnReq) (s : State), (s.phase = .running ∨ s.phase = .holdSafe) → s.pwr.battEnd = false →
    gateOpen s 0 = true → s.jug.run = none → s.jug.queue = q :: qs →
    ∃ x t, exec .rtnRunBegin s = .next t ∧ FreshRun q.booth q.tag q.entry q.args x
      ∧ t.jug = { s.jug with run := some x, queue := qs, paused := decide (s.rx.mode = .datacast ∨ s.rx.mode = .fm) }
      ∧ (t.booth q.booth).rtnState = .running ∧ t.cmd.svc = s.cmd.svc ∧ t.mem = s.mem ∧ t.nv = s.nv)
  ∧ (∀ s : State, (gateOpen s 0 = false → exec .rtnRunBegin s = .next s)
    ∧ (s.jug.run ≠ none → s.rx.mode ≠ .datacast → exec .routineResume s = .next (s.onJug fun j => { j with paused := false }))
    ∧ (s.rx.mode = .datacast → exec .routineResume s = .next s))
  ∧ ∀ (x : Run) (s : State), (s.phase = .running ∨ s.phase = .holdSafe) → s.boot.loader = false → s.jug.run = some x →
    (s.jug.paused = false → ∃ t, exec .runLimit s = .next t ∧ Trapped x 0x04 0xFF 0 s t)
    ∧ (s.jug.paused = true → exec .runLimit s = .next s)

/-- For each of the 32 booth-routine instructions and every operand its fields admit, the word built from the fields of
Table 13-4 decodes to that instruction, so no field is dropped and no two of them share a word. A three-register ALU
word with a register code 12 to 15 or an unused bit set, a BR with a condition 8 to 15, an END with a count that is
odd or above 64, and an operation that the table does not list decode to none. (R275, R276, Table 13-3, Table 13-4.) -/
def Obligations.RoutineWordsSpellTheirInstructions : Prop :=
  (∀ (i : Instr) (w : Word), jugEncode i = some w → i.wf = true → (∀ d a imm e, i = .jugLd d a imm e → e = []) →
    jugDecode w = some i)
  ∧ (∀ w : Word, wfield w 26 6 ∈ [0x03, 0x04, 0x06, 0x07, 0x08] →
      ((∃ lo ∈ [21, 16, 11], 12 ≤ wfield w lo 5 ∧ wfield w lo 5 ≤ 15) ∨ wfield w 0 11 ≠ 0) → jugDecode w = none)
  ∧ (∀ w : Word, wfield w 26 6 = 0x20 → 8 ≤ wfield w 22 4 → jugDecode w = none)
  ∧ (∀ w : Word, wfield w 26 6 = 0x3F → (wfield w 0 7 % 2 = 1 ∨ 64 < wfield w 0 7) → jugDecode w = none)
  ∧ ∀ w : Word, wfield w 26 6 ∉ [0x00, 0x01, 0x02, 0x03, 0x04, 0x05, 0x06, 0x07, 0x08, 0x09, 0x0A, 0x0B, 0x10, 0x11, 0x12, 0x13,
      0x14, 0x15, 0x18, 0x19, 0x1A, 0x1B, 0x1C, 0x1D, 0x1E, 0x1F, 0x20, 0x21, 0x28, 0x29, 0x2A, 0x3F] → jugDecode w = none

/-- At an instruction of its routine, the run goes on with the next word and the block changes in nothing but the run.
NOP changes nothing, MOVI and MOV write D. ADD, SUB, ADDI, AND, OR, XOR, SHR, SHL and ABS write D: r or v
saturating, with Z, N and a sticky S; an a-register modulo 65 536 with Z alone. CLR, MUL, MAC, MSU and ASHA write an
accumulator, limited to 40 bits, which sets V and S; products here are of r or v operands, since those of an
a-register are a free value of the model (log 24). RND writes the accumulator over 2^SH, rounded half to even,
saturating; EXP writes e, NORM also shifts by e, e being the count of bits below bit 39 equal to it. (R274, R275,
Table 13-3, Table 13-4.) -/
def Obligations.RoutineArithmeticSaturatesAndSetsFlags : Prop :=
  let lim (lo hi v : Int) : Int := if v < lo then lo else if hi < v then hi else v
  let alu (d : JReg) (v : Int) (x : Run) : Run :=
    if JReg.isA d then { regSet d (BitVec.ofInt 16 v) x with z := decide (v % 65536 = 0) }
    else
      let y := lim (-32768) 32767 v
      { regSet d (BitVec.ofInt 16 y) x with z := decide (y = 0), n := decide (y < 0), s := x.s || decide (y ≠ v) }
  let acc (second : Bool) (v : Int) (x : Run) : Run :=
    let y := lim (-(2 ^ 39)) (2 ^ 39 - 1) v
    { accPut second y x with vf := decide (y ≠ v), s := x.s || decide (y ≠ v) }
  let word (d : JReg) (h : Half) : Int := if JReg.isA d then (h.toNat : Int) else h.toInt
  let goes (i : Instr) (y : Run → Run) : Prop := ∀ (x : Run) (s : State), At i x s → exec i s = .next (ranOn x (y x) s)
  goes .jugNop (fun x => x)
  ∧ (∀ d imm, goes (.jugMovi d imm) fun x => regSet d imm x)
  ∧ (∀ d a, goes (.jugMov d a) fun x => regSet d (regGet x a) x)
  ∧ (∀ d a b, goes (.jugAdd d a b) (fun x => alu d (regInt x a + regInt x b) x)
      ∧ goes (.jugSub d a b) (fun x => alu d (regInt x a - regInt x b) x)
      ∧ goes (.jugAnd d a b) (fun x => alu d (word d (regGet x a &&& regGet x b)) x)
      ∧ goes (.jugOr d a b) (fun x => alu d (word d (regGet x a ||| regGet x b)) x)
      ∧ goes (.jugXor d a b) (fun x => alu d (word d (regGet x a ^^^ regGet x b)) x))
  ∧ (∀ d a imm, goes (.jugAddi d a imm) fun x => alu d (regInt x a + imm.toInt) x)
  ∧ (∀ d a sh, goes (.jugShr d a sh) (fun x => alu d (regInt x a / 2 ^ sh.toNat) x)
      ∧ goes (.jugShl d a sh) (fun x => alu d (regInt x a * 2 ^ sh.toNat) x))
  ∧ (∀ d a, goes (.jugAbs d a) fun x => alu d (if regInt x a < 0 then -regInt x a else regInt x a) x)
  ∧ (∀ c, goes (.jugClr c) fun x => acc c 0 x)
  ∧ (∀ c (a b : JReg), JReg.isA a = false → JReg.isA b = false →
      goes (.jugMul c a b) (fun x => acc c (regInt x a * regInt x b) x)
      ∧ goes (.jugMac c a b) (fun x => acc c (accGet x c + regInt x a * regInt x b) x)
      ∧ goes (.jugMsu c a b) (fun x => acc c (accGet x c - regInt x a * regInt x b) x))
  ∧ (∀ c (ash : BitVec 6), goes (.jugAsha c ash) fun x =>
      acc c (if ash.toNat < 32 then accGet x c * 2 ^ ash.toNat else accGet x c / 2 ^ (64 - ash.toNat)) x)
  ∧ (∀ (d : JReg) c (sh : BitVec 5), JReg.isA d = false → ∀ (x : Run) (s : State), At (.jugRnd d c sh) x s →
      ∃ v : Int, exec (.jugRnd d c sh) s = .next (ranOn x (alu d v x) s)
        ∧ 2 * v * 2 ^ sh.toNat ≤ 2 * accGet x c + 2 ^ sh.toNat ∧ 2 * accGet x c ≤ 2 * v * 2 ^ sh.toNat + 2 ^ sh.toNat
        ∧ ((2 * v * 2 ^ sh.toNat = 2 * accGet x c + 2 ^ sh.toNat ∨ 2 * accGet x c = 2 * v * 2 ^ sh.toNat + 2 ^ sh.toNat) →
            v % 2 = 0))
  ∧ ∀ (d : Fin 8) c (x : Run) (s : State) (e : Nat), -(2 ^ 39) ≤ accGet x c → accGet x c < 2 ^ 39 → e ≤ 39 →
      -(2 ^ (39 - e)) ≤ accGet x c → accGet x c < 2 ^ (39 - e) →
      (e < 39 → accGet x c < -(2 ^ (38 - e)) ∨ 2 ^ (38 - e) ≤ accGet x c) →
      (At (.jugExp d c) x s → exec (.jugExp d c) s = .next (ranOn x (regSet (.r d) (BitVec.ofNat 16 e) x) s))
      ∧ (At (.jugNorm d c) x s →
          exec (.jugNorm d c) s = .next (ranOn x (acc c (accGet x c * 2 ^ e) (regSet (.r d) (BitVec.ofNat 16 e) x)) s))

/-- At a word address below 2048, LD and LDI write D from the window, ST and STI write one window word and no other
byte; LDI and STI then step A. At 2048 or above, the instruction faults with cause 0x01, no lane and that address,
and nothing it would write changes. A gather from a start lane writes each lane from there to 15 with the window
word at base plus the index word of that lane, when all of these lie below 2048; a lane whose index word lies at
2048 or above, or whose element does, faults with that lane and address, after the lanes before it have been
written. A resumed gather starts at the recorded lane. (R270, R277, R278, R279, Table 13-4, Table 13-5.) -/
def Obligations.RoutineLoadsStoresAndGathers : Prop :=
  let wrote (x : Run) (w : Nat) (h : Half) (y : Run) (s t : State) : Prop :=
    t = { ranOn x y s with jug := { (ranOn x y s).jug with win := t.jug.win }, err := { s.err with told := t.err.told } }
      ∧ memRead t.jug.win (x.booth.val * 4096 + 2 * w) 2 = leBytes 2 h.toNat
      ∧ ∀ a, (a < x.booth.val * 4096 + 2 * w ∨ x.booth.val * 4096 + 2 * w + 2 ≤ a) → memGet t.jug.win a = memGet s.jug.win a
  (∀ (d : JReg) (a : Fin 4) (imm : BitVec 11) (x : Run) (s : State),
    let w := (x.a.get a).toNat + imm.toNat
    (At (.jugLd d a imm []) x s →
      (w < 2048 → exec (.jugLd d a imm []) s = .next (ranOn x (regSet d (window s x w) x) s))
      ∧ (2048 ≤ w → Faults x x 0x01 0xFF w s (exec (.jugLd d a imm []) s)))
    ∧ (At (.jugSt d a imm) x s → s.jug.win.wf = true →
      (w < 2048 → ∃ t, exec (.jugSt d a imm) s = .next t ∧ wrote x w (regGet x d) x s t)
      ∧ (2048 ≤ w → Faults x x 0x01 0xFF w s (exec (.jugSt d a imm) s))))
  ∧ (∀ (d : JReg) (a : Fin 4) (st : BitVec 8) (x : Run) (s : State),
    let w := (x.a.get a).toNat
    let stepped (y : Run) : Run := regSet (.a a) (regGet y (.a a) + st.signExtend 16) y
    (At (.jugLdi d a st) x s →
      (w < 2048 → exec (.jugLdi d a st) s = .next (ranOn x (stepped (regSet d (window s x w) x)) s))
      ∧ (2048 ≤ w → Faults x x 0x01 0xFF w s (exec (.jugLdi d a st) s)))
    ∧ (At (.jugSti d a st) x s → s.jug.win.wf = true →
      (w < 2048 → ∃ t, exec (.jugSti d a st) s = .next t ∧ wrote x w (regGet x d) (stepped x) s t)
      ∧ (2048 ≤ w → Faults x x 0x01 0xFF w s (exec (.jugSti d a st) s))))
  ∧ ∀ (i : Instr) (a b : Fin 4) (start : Nat) (x : Run) (s : State), At i x s →
    ((∃ k : BitVec 4, i = .jugGath16 a b k ∧ start = x.gatherFrom.getD k.toNat)
      ∨ ∃ d : Fin 8, i = .jugGath16r a b d ∧ start = x.gatherFrom.getD ((x.r.get d).toNat % 16)) → start < 16 →
    let index (l : Nat) : Nat := (x.a.get b).toNat + l
    let element (l : Nat) : Nat := (x.a.get a).toNat + (window s x (index l)).toNat
    let upTo (n : Nat) : Run := { x with v := Vector.ofFn fun l : Fin 16 =>
      if start ≤ l.val ∧ l.val < n then window s x (element l.val) else x.v.get l }
    ((∀ l, start ≤ l → l < 16 → index l < 2048 ∧ element l < 2048) → exec i s = .next (ranOn x (upTo 16) s))
    ∧ ∀ l, start ≤ l → l < 16 → (∀ k, start ≤ k → k < l → index k < 2048 ∧ element k < 2048) →
      (2048 ≤ index l → Faults x (upTo l) 0x01 (BitVec.ofNat 8 l) (index l) s (exec i s))
      ∧ (index l < 2048 → 2048 ≤ element l → Faults x (upTo l) 0x01 (BitVec.ofNat 8 l) (element l) s (exec i s))

/-- BR whose condition holds and DBNZ whose counter is not 0 afterwards go to the target, or fault with cause 0x03 and
nothing changed when it lies beyond the code; else they go on. SETFV sets or clears the vector and clears the
handler state. GETF writes a field of the fault record, at most 0xFFFF. RESUME in the handler goes back to the
recorded word, a gather to its recorded lane; outside it is an invalid encoding. END ends the run with CNT bytes of
the window, the routine loaded; a word from 2048 on faults. A program counter at or beyond CODE_LEN faults with
cause 0x03, a word that encodes nothing with cause 0x02. An instruction other than the one at the program counter,
or without a run, changes nothing. (R276, R278, R279, R383, Table 13-4, Table 13-5.) -/
def Obligations.RoutineControlBranchesTrapsAndEnds : Prop :=
  let holds (x : Run) : JCond → Bool
    | .always => true | .z => x.z | .nz => !x.z | .n => x.n | .nn => !x.n | .v => x.vf | .nv => !x.vf | .s => x.s
  let jumps (x y : Run) (tgt : Nat) (s : State) (o : Host.Outcome State Fault Refusal) : Prop :=
    (4 * tgt < (s.booth x.booth).codeLen → o = .next (ranAt x y tgt s))
    ∧ ((s.booth x.booth).codeLen ≤ 4 * tgt → Faults x x 0x03 0xFF tgt s o)
  (∀ (c : JCond) (tgt : BitVec 9) (x : Run) (s : State), At (.jugBr c tgt) x s →
    (holds x c = true → jumps x x tgt.toNat s (exec (.jugBr c tgt) s))
    ∧ (holds x c = false → exec (.jugBr c tgt) s = .next (ranOn x x s)))
  ∧ (∀ (d : Fin 8) (tgt : BitVec 9) (x : Run) (s : State), At (.jugDbnz d tgt) x s →
    let y := regSet (.r d) (x.r.get d - 1) x
    (x.r.get d ≠ 1 → jumps x y tgt.toNat s (exec (.jugDbnz d tgt) s))
    ∧ (x.r.get d = 1 → exec (.jugDbnz d tgt) s = .next (ranOn x y s)))
  ∧ (∀ (tgt : BitVec 9) (clr : Bool) (x : Run) (s : State), At (.jugSetfv tgt clr) x s →
    exec (.jugSetfv tgt clr) s = .next (ranOn x { x with vector := if clr then none else some tgt.toNat, handler := false } s))
  ∧ (∀ (d : Fin 8) (f : BitVec 2) (x : Run) (s : State), At (.jugGetf d f) x s →
    exec (.jugGetf d f) s = .next (ranOn x (regSet (.r d) (
      if f = 0 then (x.flt.cause.zeroExtend 16 ||| if x.flt.nested then 0x80 else 0)
      else if f = 1 then x.flt.lane.zeroExtend 16
      else if f = 2 then BitVec.ofNat 16 (min x.flt.pc 0xFFFF) else BitVec.ofNat 16 (min x.flt.addr 0xFFFF)) x) s))
  ∧ (∀ (x : Run) (s : State), At .jugResume x s →
    (x.handler = true → exec .jugResume s = .next (ranTo { x with
      resuming := true, pc := x.flt.pc, gatherFrom := if x.flt.lane = 0xFF then none else some x.flt.lane.toNat } s))
    ∧ (x.handler = false → Faults x x 0x02 0xFF 0 s (exec .jugResume s)))
  ∧ (∀ (a : Fin 4) (cnt : BitVec 7) (x : Run) (s : State), At (.jugEnd a cnt) x s →
    let w := (x.a.get a).toNat
    ((w + cnt.toNat / 2 ≤ 2048 ∨ cnt = 0) → ∃ t, exec (.jugEnd a cnt) s = .next t
      ∧ RunEnded x .ok (memRead s.jug.win (x.booth.val * 4096 + 2 * w) cnt.toNat) .loaded s t)
    ∧ (2048 < w + cnt.toNat / 2 → cnt ≠ 0 → Faults x x 0x01 0xFF (max w 2048) s (exec (.jugEnd a cnt) s)))
  ∧ ∀ (i : Instr) (w : Word) (x : Run) (s : State), jugEncode i = some w → i.wf = true →
    (∀ d a imm e, i = .jugLd d a imm e → e = []) →
    ((s.jug.run = none ∨ gateOpen s 0 = false) → exec i s = .next s)
    ∧ (s.jug.run = some x → s.jug.paused = false → gateOpen s 0 = true → (s.phase = .running ∨ s.phase = .holdSafe) → s.boot.loader = false →
        s.err.bad = [] →
        let here := jugDecode (BitVec.ofNat 32 (ofLe (memRead s.jug.code (x.booth.val * 2048 + 4 * x.pc) 4)))
        ((s.booth x.booth).codeLen ≤ 4 * x.pc → Faults x x 0x03 0xFF x.pc s (exec i s))
        ∧ (4 * x.pc < (s.booth x.booth).codeLen → here = none → Faults x x 0x02 0xFF 0 s (exec i s))
        ∧ ∀ j, 4 * x.pc < (s.booth x.booth).codeLen → here = some j → j ≠ i → exec i s = .next s)

/-- IMG_WRITE of an aligned range within the slot writes an inactive slot that is EMPTY, READY, REJECTED or being loaded
by the host, moves it to LOADING and no other byte changes; when the header and the last byte are written its check
starts; a slot held otherwise is ST_SLOT_BUSY, a bad range ST_BAD_PARAM. The check moves the slot to READY or
REJECTED, with its event; a slot passes only with magic, floor, hash and both signatures right. IMG_ACTIVATE makes a
READY slot TRIAL with its time, replaces the time of a pending TRIAL, changes nothing once due, and is ST_SLOT_BUSY
else; a pending activation falls due when its time is reached. IMG_CONFIRM makes the running trial slot active, the
other READY, and raises the floor when it must and can. IMG_STATUS gives the state bytes, which are the model's free
values (log 13), and both versions. (R89, R94, R95, R96, R99, R100, Table 5-2, Table 7-2.) -/
def Obligations.ImagesAreWrittenCheckedAndActivated : Prop :=
  let field (s : State) (sl : Slot) (off n : Nat) : Nat := ofLe (memRead s.mem (slotBase sl + off) n)
  let written (s : State) (o : Nat) : Prop := ∃ r ∈ s.nv.imgWrote, r.1 ≤ o ∧ o < r.1 + r.2
  let reached (s : State) (n : Nat) : Prop := n = 0 ∨ timeKnown s = true ∧ n ≤ devSec s
  (∀ (p : Packet) (off : Nat) (s : State), Serves op_imgWrite Needs.none p s → s.mem.wf = true → leField p.payload 0 4 = off →
    let sl := otherSlot s.nv.br.active
    let n := p.payload.length - 4
    ((off % 4 ≠ 0 ∨ 786432 < off + n) → exec (.imgWrite p) s = .next (replied p .badParam [] s))
    ∧ (off % 4 = 0 → off + n ≤ 786432 →
        (slotState s sl = .trial ∨ slotState s sl = .active ∨ (slotState s sl = .loading ∧ s.nv.br.path = some .cars)) →
        exec (.imgWrite p) s = .next (replied p .slotBusy [] s))
    ∧ (off % 4 = 0 → off + n ≤ 786432 →
        (slotState s sl = .empty ∨ slotState s sl = .ready ∨ slotState s sl = .rejected
          ∨ (slotState s sl = .loading ∧ s.nv.br.path ≠ some .cars)) →
        ∃ t, exec (.imgWrite p) s = .next t ∧ ReplyAdded p.src.booth p.tag .ok [] s t ∧ slotState t sl = .loading
          ∧ slotState t s.nv.br.active = slotState s s.nv.br.active ∧ t.nv.br.active = s.nv.br.active
          ∧ t.nv.br.path = some .host
          ∧ t.nv.imgWrote = (off, n) :: (if slotState s sl = .loading then s.nv.imgWrote else [])
          ∧ (∀ a, memGet t.mem a = if slotBase sl + off ≤ a ∧ a < slotBase sl + off + n
              then byteAt p.payload (a - (slotBase sl + off) + 4) else memGet s.mem a)
          ∧ ((∀ o, o < 256 → written t o) → written t (256 + field t sl 16 4 + 63) → t.boot.imgCheck = some sl)
          ∧ ((∃ o, o < 256 ∧ ¬ written t o) → t.boot.imgCheck = s.boot.imgCheck)))
  ∧ (∀ (sl : Slot) (s : State), s.boot.imgCheck = some sl → s.boot.loader = false →
    ∃ t, exec .imgCheckDone s = .next t ∧ slotState t sl = (if imageOk s sl then .ready else .rejected)
      ∧ slotState t (otherSlot sl) = slotState s (otherSlot sl) ∧ t.boot.imgCheck = none ∧ t.nv.br.path = none ∧ t.mem = s.mem
      ∧ Raised (if imageOk s sl then .imgReady else .imgInvalid) s t)
  ∧ (∀ (sl : Slot) (s : State), imageOk s sl = true →
    field s sl 0 4 = 0x4F564C50 ∧ field s sl 12 4 ≤ field s sl 8 4 ∧ cellNat s 6 ≤ field s sl 8 4
      ∧ sha256 (memRead s.mem (slotBase sl + 256) (field s sl 16 4)) = memRead s.mem (slotBase sl + 40) 32
      ∧ (∃ key, sha256 key = bytesOf 32 256 Config.vendorKeyHash
          ∧ edVerify key (memRead s.mem (slotBase sl + 128) 64) (memRead s.mem (slotBase sl) 128) = true)
      ∧ (lifeCycle s ≠ .blank → ∃ key, sha256 key = cellValue s 2
          ∧ edVerify key (memRead s.mem (slotBase sl + 192) 64) (memRead s.mem (slotBase sl) 192) = true))
  ∧ (∀ (p : Packet) (s : State), Serves op_imgActivate Needs.none p s →
    let sl := otherSlot s.nv.br.active
    let at_time (u : State) : State := u.onNv fun n => { n with br := { n.br with
      actTime := BitVec.ofNat 32 (leField p.payload 0 4), due := timeReached s (leField p.payload 0 4), started := false } }
    (slotState s sl = .ready → exec (.imgActivate p) s = .next (replied p .ok [] (at_time (setSlot sl .trial s))))
    ∧ (slotState s sl = .trial → s.nv.br.due = false → exec (.imgActivate p) s = .next (replied p .ok [] (at_time s)))
    ∧ (slotState s sl = .trial → s.nv.br.due = true → exec (.imgActivate p) s = .next (replied p .ok [] s))
    ∧ (slotState s sl ≠ .ready → slotState s sl ≠ .trial → exec (.imgActivate p) s = .next (replied p .slotBusy [] s)))
  ∧ (∀ s : State, (s.phase = .running ∨ s.phase = .holdSafe) → slotState s (otherSlot s.nv.br.active) = .trial → s.nv.br.due = false →
    (∀ n, timeReached s n = true ↔ reached s n)
    ∧ (reached s s.nv.br.actTime.toNat →
        exec .activationDue s = .next (s.onNv fun n => { n with br := { n.br with due := true } }))
    ∧ (¬ reached s s.nv.br.actTime.toNat → exec .activationDue s = .next s))
  ∧ (∀ (p : Packet) (s : State), Serves op_imgConfirm Needs.none p s →
    let req := field s s.boot.slot 12 4
    (s.boot.trial = false → exec (.imgConfirm p) s = .next (replied p .badParam [] s))
    ∧ (s.boot.trial = true → ∃ (f : Byte) (t : State), exec (.imgConfirm p) s = .next t ∧ ReplyAdded p.src.booth p.tag .ok [f] s t
        ∧ t.nv.br.active = s.boot.slot ∧ slotState t s.boot.slot = .active ∧ slotState t (otherSlot s.boot.slot) = .ready
        ∧ t.boot.trial = false ∧ t.nv.br.floorPend = none ∧ t.mem = s.mem
        ∧ (req ≤ cellNat s 6 → f = 0 ∧ t.nv.spore = s.nv.spore)
        ∧ (cellNat s 6 < req → (cellLeft s 6 = 0 ∨ lifeCycle s = .retired) →
            f = 2 ∧ t.nv.spore = s.nv.spore ∧ Raised .floorSpent s t)
        ∧ (cellNat s 6 < req → cellLeft s 6 ≠ 0 → lifeCycle s ≠ .retired →
            f = 1 ∧ cellNat t 6 = req ∧ cellLeft t 6 = cellLeft s 6 - 1 ∧ Raised .floorRaised s t)))
  ∧ ∀ (p : Packet) (s : State), Serves op_imgStatus Needs.none p s →
    ∃ x y : Byte, exec (.imgStatus p) s = .next (replied p .ok
      ([x, y, 0, 0] ++ memRead s.mem (slotBase .a + 8) 4 ++ memRead s.mem (slotBase .b + 8) 4) s)

/-- LC_PROVISION in BLANK, with cells 1 to 3 written, the running image's owner signature right and the random source
sound, makes a fresh audit key, starts the log anew with its PROVISION entry, clears the stored sequences and steps
to PROVISIONED; else it is ST_LIFECYCLE. LC_FIELD in PROVISIONED with the owner's signature over ID_UNIQUE and the
code 2 steps to FIELD; LC_RETIRE in PROVISIONED or FIELD with the code 3 writes a RETIRE entry with a checkpoint
over it, marks the boot record, steps to RETIRED and leaves every key slot empty; a wrong signature is ST_AUTH_FAIL,
a wrong state ST_LIFECYCLE. On a free hash and curve engine this happens with the packet (the model's choice, log 54); a busy
one takes the work in its turn, and its end brings the same. Each completion is a reset with cause LIFECYCLE and no reply.
(R15, R101, R102, R103, R193, R314, R363, R364, R405, Table 5-4.) -/
def Obligations.LifeCycleMovesForwardThroughAReset : Prop :=
  let signed (s : State) (code : Byte) (sig : Bytes) : Bool := ownerVerifies s sig (leBytes 8 Config.idUnique.toNat ++ [code])
  let fired (s t : State) : Prop := t.phase = .reset ∧ t.ao.seen.getLsbD 9 = true ∧ t.ao.causes.getLsbD 9 = true
    ∧ t.cmd = Cmd.start ∧ t.vd = Vd.start ∧ t.boot.nrstDrive = s.pwr.vddioOk
  let may (s : State) : Prop := lifeCycle s = .blank ∧ cellWritten s 1 = true ∧ cellWritten s 2 = true ∧ cellWritten s 3 = true
    ∧ ownerSigOk s s.boot.slot = true ∧ s.keep.rngFailing = false
  let provisioned (s t : State) : Prop := fired s t ∧ lifeCycle t = .provisioned
    ∧ (keySlot t 4).typ = .audit25519 ∧ (keySlot t 4).gen = (keySlot s 4).gen + 1 ∧ (∀ k, k ≠ 4 → keySlot t k = keySlot s k)
    ∧ (∃ e, t.nv.log.entries.getLast? = some e ∧ e.seq = 0 ∧ e.kind = 0x0F
        ∧ e.body = padTo 32 ((edPublic (keySlot t 4).key).take 28))
    ∧ t.nv.log.release = 0 ∧ t.nv.log.checkpoints = [] ∧ t.nv.seqs = [] ∧ t.nv.deltaSeq = 0 ∧ t.mem = s.mem
  let retired (s t : State) : Prop := fired s t ∧ lifeCycle t = .retired ∧ t.nv.br.retireMark = true
    ∧ (∀ k, k < 64 → (keySlot t k).typ = .empty)
    ∧ (LogReady s → s.vd.windows = [] → t.mem = s.mem
        ∧ (∃ e ∈ t.nv.log.entries, e.seq = s.nv.log.next ∧ e.kind = 0x0E)
        ∧ ∃ c, t.nv.log.checkpoints.head? = some c ∧ c.covered = s.nv.log.next
            ∧ c.sig = edSign (keySlot s 4).key c.signed)
  let waits (i : Instr) (op : Byte) (p : Packet) (j : JobOp) (s : State) : Prop :=
    exec i s = .next (onEngine .hash
      { s.keep.hash with queue := s.keep.hash.queue ++ [{ booth := p.src.booth, tag := p.tag, op := j }] } (accepted op p s))
  (∀ (p : Packet) (s : State), Serves op_lcProvision Needs.none p s →
    (lifeCycle s ≠ .blank → exec (.lcProvision p) s = .next (replied p .lifecycle [] s))
    ∧ (lifeCycle s = .blank → s.keep.hash.cur ≠ none → waits (.lcProvision p) op_lcProvision.op p .provision s)
    ∧ (EngineFree .hash s → may s → ∃ t, exec (.lcProvision p) s = .next t ∧ provisioned s t)
    ∧ (EngineFree .hash s → ¬ may s → exec (.lcProvision p) s = .next (replied p .lifecycle [] s)))
  ∧ (∀ (p : Packet) (s : State), Serves op_lcField Needs.none p s →
    (lifeCycle s ≠ .provisioned → exec (.lcField p) s = .next (replied p .lifecycle [] s))
    ∧ (lifeCycle s = .provisioned → s.keep.hash.cur ≠ none →
        waits (.lcField p) op_lcField.op p (.lifeMove .field p.payload) s)
    ∧ (EngineFree .hash s → lifeCycle s = .provisioned → signed s 2 p.payload = false →
        exec (.lcField p) s = .next (replied p .authFail [] s))
    ∧ (EngineFree .hash s → lifeCycle s = .provisioned → signed s 2 p.payload = true →
        ∃ t, exec (.lcField p) s = .next t ∧ fired s t ∧ lifeCycle t = .field ∧ t.nv.keys = s.nv.keys ∧ t.mem = s.mem))
  ∧ (∀ (p : Packet) (s : State), Serves op_lcRetire Needs.none p s →
    (lifeCycle s ≠ .provisioned → lifeCycle s ≠ .field → exec (.lcRetire p) s = .next (replied p .lifecycle [] s))
    ∧ ((lifeCycle s = .provisioned ∨ lifeCycle s = .field) → s.keep.hash.cur ≠ none →
        waits (.lcRetire p) op_lcRetire.op p (.lifeMove .retired p.payload) s)
    ∧ (EngineFree .hash s → (lifeCycle s = .provisioned ∨ lifeCycle s = .field) → signed s 3 p.payload = false →
        exec (.lcRetire p) s = .next (replied p .authFail [] s))
    ∧ (EngineFree .hash s → (lifeCycle s = .provisioned ∨ lifeCycle s = .field) → signed s 3 p.payload = true →
        ∃ t, exec (.lcRetire p) s = .next t ∧ retired s t))
  ∧ ∀ (b : Booth) (tag : Byte) (op : JobOp) (s : State),
    s.keep.hash.cur = some (.cmd { booth := b, tag := tag, op := op } [] none) →
    let ends (r : State → Prop) : Prop := ∃ t, exec (.engineOperationEnd .hash) s = .next t ∧ r t
    (op = .provision → (may s → ends (provisioned s)) ∧ (¬ may s → ends (ReplyAdded b tag .lifecycle [] s)))
    ∧ (∀ sig, op = .lifeMove .field sig → lifeCycle s = .provisioned →
        (signed s 2 sig = true → ends fun t => fired s t ∧ lifeCycle t = .field)
        ∧ (signed s 2 sig = false → ends (ReplyAdded b tag .authFail [] s)))
    ∧ (∀ sig, op = .lifeMove .retired sig → (lifeCycle s = .provisioned ∨ lifeCycle s = .field) →
        (signed s 3 sig = true → ends (retired s)) ∧ (signed s 3 sig = false → ends (ReplyAdded b tag .authFail [] s)))

/-- A rail start that is good ends the unpowered phase in a reset whose cause is POWER_ON, or BROWNOUT after a powering
down with the always-on domain kept; one that trips changes nothing; a restart after powering down is the same
start. Powering down ends in the unpowered phase with every pin let go, no command, the always-on domain kept with
its time, the nonvolatile keys, cells and memory kept, and, when its entry is written and nothing else waits, a
POWER_DOWN entry with the VIN readings; a torn one leaves its sequence to the LOST entry; an assertion of TAMPER_IN in
it is latched while VDDIO is present. The loss of the always-on domain clears it. The return of VDDIO in a reset drives
NRST. (R59, R66, R67, R68, R82, R84, R362, Table 4-4, Table 4-5, Table 5-1, Table 17-3.) -/
def Obligations.SuppliesStartAndEndThePhases : Prop :=
  let starts (c : Cause) (s : State) (o : Host.Outcome State Fault Refusal) : Prop := ∃ t, o = .next t ∧ t.phase = .reset
    ∧ t.ao = { s.ao with causes := 1#11 <<< (c.code - 1), seen := s.ao.seen ||| 1#11 <<< (c.code - 1) }
    ∧ t.cmd = Cmd.start ∧ t.vd = Vd.start ∧ t.boot = Boot.start ∧ t.pwr.vinOk = true ∧ t.pwr.vddioOk = true ∧ t.pwr.pgood = true
    ∧ t.nv.keys = s.nv.keys ∧ t.nv.spore = s.nv.spore ∧ t.nv.log = s.nv.log ∧ t.mem = s.mem
  (∀ s : State, s.phase = .unpowered →
    starts (if s.ao.afterDown then .brownout else .powerOn) s (exec (.railStart .good) s)
    ∧ exec (.railStart .tripped) s = .next s
    ∧ (s.ao.afterDown = true → starts .brownout s (exec .powerOnRestart s))
    ∧ (s.ao.afterDown = false → exec .powerOnRestart s = .next s)
    ∧ exec .alwaysOnLoss s = .next { s with ao := Ao.start })
  ∧ (∀ (c : DownCause) (tear : LogTear) (tamper : Bool) (s : State), s.phase ≠ .unpowered →
    ∃ t, exec (.poweringDown c tear tamper) s = .next t ∧ t.phase = .unpowered ∧ t.cmd = Cmd.start ∧ t.vd = Vd.start
      ∧ (∀ i, t.door.pins.get i = .z) ∧ t.pwr.vinOk = false ∧ t.pwr.pgood = false
      ∧ t.ao.afterDown = true ∧ t.ao.vsysTrip = decide (c = .vsys) ∧ t.ao.causes = 0
      ∧ t.ao.rtc = s.ao.rtc ∧ t.ao.known = s.ao.known ∧ t.ao.fine = s.ao.fine ∧ t.ao.u = s.ao.u ∧ t.ao.seen = s.ao.seen
      ∧ t.nv.keys = s.nv.keys ∧ t.nv.spore = s.nv.spore ∧ t.nv.revoked = s.nv.revoked
      ∧ (tamper = true → s.pwr.vddioOk = true → t.ao.tamper = true ∧ t.ao.tamperStart = true)
      ∧ (s.vd.intake = [] → s.vd.windows = [] → s.phase ≠ .reset → LogReady s → s.nv.log.torn = false → t.mem = s.mem
          ∧ (tamper = false → t.ao.tamper = s.ao.tamper)
          ∧ (tear = .written → Logged 0x0D 0x00 (leBytes 4 (vinMon s).toNat) s t)
          ∧ (tear = .missing → t.nv.log = s.nv.log)
          ∧ (tear = .torn → t.nv.log = { s.nv.log with torn := true })))
  ∧ ∀ s : State, s.pwr.vddioOk = false →
    exec .vddioReturn s = .next { s with
      pwr := { s.pwr with vddioOk := true }, boot := if s.phase = .reset then { s.boot with nrstDrive := true } else s.boot }

/-- RESET_RELEASE in a reset with VDDIO present: the booting phase begins with no pin driven; the strap code and base
follow the band of the ADDR voltage and a pin's rest code is LOW or HIGH when both its readings agree on it, else
FLOAT; BOOT_CAUSE gives the asserted cause of lowest code and all causes seen. After the third KEEP_FAULT in a row
the Keep stops; a failed ROM or cell check resets again with KEEP_FAULT; a failed start-up test of the random source fails
it, with its error record free. Else, with no retirement or confirmation
left over: a due TRIAL slot that passes its check boots, marked started; a started one becomes REJECTED and the
active slot boots as a fallback; with no TRIAL the active slot boots when it passes, else the other, which becomes
active while the failed one becomes REJECTED; when neither passes, none boots, and in BLANK and PROVISIONED the
loader state begins. (R44, R46, R47, R82, R85, R91, R92, R93, R97, R107, R209, Table 3-3.) -/
def Obligations.ResetReleaseSensesAndSelectsTheSlot : Prop :=
  ∀ (e : BootEnv) (s : State), s.phase = .reset → s.pwr.vddioOk = true →
    (startUpOk e.rng = true ∨ s.err.aValid = false ∨ s.err.bValid = false) →
    let code := if e.addrMv < 50 then 0 else if e.addrMv < 160 then 1 else if e.addrMv < 300 then 2 else if e.addrMv < 500 then 3
      else if e.addrMv < 760 then 4 else if e.addrMv < 1100 then 5 else if e.addrMv < 1500 then 6 else 7
    let base : BitVec 7 := ([0x20, 0x28, 0x30, 0x38, 0x40, 0x48, 0x58, 0x60] : List (BitVec 7)).getD code 0
    let active := s.nv.br.active
    let other := otherSlot active
    let stops := (∀ c : Cause, s.ao.causes &&& 1#11 <<< (c.code - 1) ≠ 0 → 7 ≤ c.code) ∧ s.ao.causes.getLsbD 6 = true
      ∧ 2 ≤ s.ao.keepFaults
    let boots (t : State) (sl : Slot) (trial fallback failed : Bool) : Prop := t.boot.verified = true ∧ t.boot.slot = sl
      ∧ t.boot.trial = trial ∧ t.boot.fallback = fallback ∧ t.boot.trialFailed = failed
      ∧ t.boot.version = BitVec.ofNat 32 (ofLe (memRead s.mem (slotBase sl + 8) 4)) ∧ t.boot.loader = s.boot.loader
    ∃ t, exec (.resetRelease e) s = .next t
      ∧ ((e.romOk = true ∧ e.sporeOk = true ∨ stops) → t.phase = .booting ∧ t.pwr.pgood = true ∧ t.hb.strap = some (code, base)
          ∧ bits t.hb.addrCfg 16 7 = base.toNat ∧ (∀ i, t.door.pins.get i = .z)
          ∧ (∀ i, t.door.rest.get i = (match e.readings.first.get i, e.readings.second.get i with
              | .low, .low => .low | .high, .high => .high | _, _ => .float))
          ∧ (∀ c : Cause, s.ao.causes &&& 1#11 <<< (c.code - 1) ≠ 0 →
              (∀ d : Cause, s.ao.causes &&& 1#11 <<< (d.code - 1) ≠ 0 → c.code ≤ d.code) →
              bits t.boot.causeReg 0 4 = c.code ∧ bits t.boot.causeReg 16 11 = s.ao.seen.toNat))
      ∧ (stops → t.boot.stopped = true ∧ t.boot.verified = s.boot.verified)
      ∧ (¬ stops → e.romOk = true → e.sporeOk = true →
          t.keep.rngFailing = (s.keep.rngFailing || !startUpOk e.rng))
      ∧ (¬ stops → (e.romOk = false ∨ e.sporeOk = false) →
          t.phase = .reset ∧ t.ao.causes = 1#11 <<< 6 ∧ t.ao.seen.getLsbD 6 = true)
      ∧ (¬ stops → e.romOk = true → e.sporeOk = true → s.nv.br.retireMark = false → s.nv.br.floorPend = none →
          lifeCycle s ≠ .retired → t.mem = s.mem ∧ t.nv.keys = s.nv.keys ∧ t.nv.log = s.nv.log
          ∧ (slotState s other = .trial → s.nv.br.due = true → s.nv.br.started = false → imageOk s other = true →
              boots t other true false false ∧ t.nv.br = { s.nv.br with started := true })
          ∧ (slotState s other = .trial → s.nv.br.started = true → imageOk s active = true →
              boots t active false true true ∧ slotState t other = .rejected ∧ t.nv.br.active = active)
          ∧ (slotState s other ≠ .trial → imageOk s active = true → boots t active false false false ∧ t.nv.br = s.nv.br)
          ∧ (slotState s other ≠ .trial → imageOk s active = false → slotState s other ≠ .rejected → imageOk s other = true →
              boots t other false true false ∧ t.nv.br.active = other ∧ slotState t other = .active
              ∧ slotState t active = if slotState s active = .empty then .empty else .rejected)
          ∧ (imageOk s active = false → imageOk s other = false →
              t.boot.verified = s.boot.verified ∧ t.boot.loader = decide (lifeCycle s = .blank ∨ lifeCycle s = .provisioned)))

/-- RINGMASTER_RELEASE in booting with a verified image, VDDIO present and PGOOD high: the running phase begins; the
causes seen start anew; the debug port is open in BLANK, asks for a challenge in PROVISIONED and is closed else; the
trial watchdog starts when a trial runs; the table region and the SRAM booth data read 0 and no other byte changes;
the door record's timing and motor values are back; the Juggler is released with the image's section in its program memory,
READY is set, EV_BOOT_DONE is raised,
EV_REST_FLOAT when a door output's rest is not sensed; with no torn entry and no tamper latched, the BOOT entry
gives BOOT_CAUSE, BOOT_STAT, the version and the rest codes. Without these conditions nothing happens. (R53, R82,
R86, R87, R97, R104, R179, R234, R359, Table 5-3, Table 17-3.) -/
def Obligations.RingmasterReleaseBeginsTheRunningPhase : Prop :=
  (∀ (e : ReleaseEnv) (s : State), s.phase = .booting → s.boot.verified = true → s.pwr.vddioOk = true → s.pwr.pgood = true →
    s.boot.loader = false → s.err.aValid = false → s.err.bValid = false → s.mem.wf = true →
    let field (t : State) (o : Nat) : Nat := ofLe (memRead t.mem (slotBase s.boot.slot + o) 4)
    ∃ t, exec (.ringmasterRelease e) s = .next t ∧ t.phase = .running ∧ t.ao.seen = 0 ∧ t.ao.afterDown = false
      ∧ t.boot.ready = true ∧ t.jug.released = true
      ∧ t.jug.prog = memRead t.mem (slotBase s.boot.slot + (256 + field t 28)) (field t 32) ∧ t.jug.progEntry = field t 24
      ∧ t.boot.dbg = (match lifeCycle s with | .blank => .open_ | .provisioned => .challenge | _ => .closed)
      ∧ t.boot.trialStart = (if s.boot.trial then some s.ao.rtc else none)
      ∧ (∀ a, memGet t.mem a = if 0x00040000 ≤ a ∧ a < 0x00080000 then 0 else memGet s.mem a)
      ∧ (∀ r, s.nv.doorRec = some r → t.door.timing = r.timing ∧ t.door.motor = r.motor)
      ∧ Raised .bootDone s t ∧ (restOk s = false → Raised .restFloat s t) ∧ (s.boot.fallback = true → Raised .slotFallback s t)
      ∧ (s.nv.log.torn = false → s.ao.tamper = false → LogReady s →
          (∀ r, s.nv.doorRec = some r → r.inCfg.getLsbD 2 = s.ao.tamperLow) →
          Logged 0x0C 0x00 (leBytes 4 t.boot.causeReg.toNat ++ leBytes 4 (bootStat t).toNat ++ leBytes 4 t.boot.version.toNat
            ++ leBytes 2 ((doorRest t).toNat % 65536)) s t))
  ∧ ∀ (e : ReleaseEnv) (s : State), (s.phase ≠ .booting ∨ s.boot.verified = false ∨ s.pwr.vddioOk = false ∨ s.pwr.pgood = false) →
    exec (.ringmasterRelease e) s = .next s
end

