-- ==== Sys2Proof/Laws/Chain.lean ====
section
/-! SUPPORT. The frond chain and the settling clocks, said once: the bounds of a conversion, and what the passing of one RTC
period may change. -/

namespace Sys2Proof.Machine

/-- A converted component lies within 32 767 of zero (R260). -/
theorem satSample_bounds (x : Int) : -32767 ≤ (satSample x).1 ∧ (satSample x).1 ≤ 32767 := by
  simp only [satSample]; omega

/-- A component that fits is converted to itself, without saturation (R260). -/
theorem satSample_fits {x : Int} (lo : -32767 ≤ x) (hi : x ≤ 32767) : satSample x = (x, false) := by
  have h : max (-32767) (min 32767 x) = x := by omega
  simp [satSample, h]

/-- A frond that holds a sample back yields nothing and is ready for the next one (R259). -/
theorem frondStep_skip (h : List Int) (conv : Int → Int × Bool) (x : Sample) (f : Frond) (hs : f.skip = true) :
    frondStep h conv x f = ({ line := (x :: f.line).take h.length, skip := false }, none) := by
  simp [frondStep, hs]

/-- A frond that is ready yields its two converted sums (R259, R260). -/
theorem frondStep_yield (h : List Int) (conv : Int → Int × Bool) (x : Sample) (f : Frond) (hs : f.skip = false) :
    frondStep h conv x f =
      ({ line := (x :: f.line).take h.length, skip := true },
        some (((conv (firSum h (((x :: f.line).take h.length).map (·.1)))).1,
               (conv (firSum h (((x :: f.line).take h.length).map (·.2)))).1),
              (conv (firSum h (((x :: f.line).take h.length).map (·.1)))).2
                || (conv (firSum h (((x :: f.line).take h.length).map (·.2)))).2)) := by
  simp [frondStep, hs]

/-- The peak detector never falls (R267). -/
theorem detect_peak_le (p : ChainPath) (tc : Nat) (x : Sample) (d : Det) : d.peak ≤ (detect p tc x d).peak := by
  simp only [detect]; omega

/-- Bringing the clock outputs in line changes the radio alone, and neither its mode, its channel nor its window. -/
theorem clocks_frame (s : State) :
    clocks s = { s with rx := (clocks s).rx } ∧ (clocks s).rx.mode = s.rx.mode ∧ (clocks s).rx.chan = s.rx.chan
      ∧ (clocks s).rx.window = s.rx.window ∧ (clocks s).rx.frame = s.rx.frame := ⟨rfl, rfl, rfl, rfl, rfl⟩

/-- What settles in an RTC period changes the radio alone (R167, R253). -/
theorem clockTick_frame (s : State) :
    clockTick s = { s with rx := (clockTick s).rx } ∧ (clockTick s).rx.mode = s.rx.mode
      ∧ (clockTick s).rx.chan = s.rx.chan ∧ (clockTick s).rx.window = s.rx.window := by
  unfold clockTick
  split
  · exact ⟨rfl, rfl, rfl, rfl⟩
  · exact ⟨rfl, rfl, rfl, rfl⟩

/-- Noting blanked samples changes the radio alone (R303). -/
theorem noteBlank_frame (s : State) :
    noteBlank s = { s with rx := (noteBlank s).rx } ∧ (noteBlank s).rx.mode = s.rx.mode
      ∧ (noteBlank s).rx.chan = s.rx.chan := by
  unfold noteBlank
  split
  · exact ⟨rfl, rfl, rfl⟩
  · exact ⟨rfl, rfl, rfl⟩

/-- Noting a saturated component changes pending events, in-band requests and the radio's note of it (R265). -/
theorem noteSat_frame (sat : Bool) (s : State) :
    noteSat sat s = { s with cmd := { s.cmd with booths := (noteSat sat s).cmd.booths }
                             hb := { s.hb with ibrReq := (noteSat sat s).hb.ibrReq }
                             rx := (noteSat sat s).rx }
      ∧ (noteSat sat s).rx.mode = s.rx.mode ∧ (noteSat sat s).rx.chan = s.rx.chan := ⟨rfl, rfl, rfl⟩

/-- The samples of an RTC period reach the chain, or the chain does not run. -/
theorem chainTick_cases (s : State) :
    chainTick s = noteBlank s ∨ ∃ (w : Flow) (n : Nat), chainTick s = takeFlow w n (noteBlank s) := by
  by_cases h : chainRuns (noteBlank s) = true
  · exact .inr ⟨sampleFlow 500 (noteBlank s), (noteBlank s).free + 500, by simp only [chainTick, h, if_true]⟩
  · exact .inl (by simp only [chainTick, h, Bool.false_eq_true, if_false])

/-- The samples of one RTC period change the chain and its detectors, pending events, in-band requests, the radio's notes of
blanking and saturation, and the counter of free values (R259, R265, R303). -/
theorem chainTick_frame (s : State) :
    ∃ booths ibr r c d n,
      chainTick s = { s with cmd := { s.cmd with booths := booths }
                             hb := { s.hb with ibrReq := ibr }
                             rx := r
                             jug := { s.jug with chain := c, det := d }
                             free := n }
        ∧ r.mode = s.rx.mode ∧ r.chan = s.rx.chan := by
  obtain ⟨hb, hm, hc⟩ := noteBlank_frame s
  rcases chainTick_cases s with h | ⟨w, n, h⟩
  · rw [h]
    exact ⟨s.cmd.booths, s.hb.ibrReq, (noteBlank s).rx, s.jug.chain, s.jug.det, s.free, hb, hm, hc⟩
  · rw [h]
    generalize noteBlank s = u at hb hm hc
    obtain ⟨r, rfl⟩ : ∃ r, u = { s with rx := r } := ⟨u.rx, hb⟩
    obtain ⟨h1, h2, h3⟩ := noteSat_frame w.sat { s with rx := r, jug := { s.jug with chain := w.chain, det := w.det }, free := n }
    exact ⟨_, _, _, _, _, _, h1, h2.trans hm, h3.trans hc⟩

/-- Where the radio does not listen, the samples of an RTC period change nothing. -/
theorem chainTick_quiet (s : State) (h1 : s.rx.mode ≠ .datacast) (h2 : s.rx.mode ≠ .fm) : chainTick s = s := by
  have a : blanking s = false := by simp [blanking, h1, h2]
  have b : chainRuns s = false := by simp [chainRuns, h1, h2]
  simp [chainTick, noteBlank, a, b]

end Sys2Proof.Machine
end

