-- ==== Sys2Proof/Laws/State.lean ====
section
/-! SUPPORT. Every field of the state after every group update: what a later proof rewrites with instead of unfolding a
record update. -/

namespace Sys2Proof.Machine

variable (s : State) (b : Booth) (g : BoothSt → BoothSt)

@[simp] theorem State.onNv_pending (f : Nv → Nv) : (s.onNv f).pending = s.pending := rfl
@[simp] theorem State.onNv_phase (f : Nv → Nv) : (s.onNv f).phase = s.phase := rfl
@[simp] theorem State.onNv_nv (f : Nv → Nv) : (s.onNv f).nv = f s.nv := rfl
@[simp] theorem State.onNv_mem (f : Nv → Nv) : (s.onNv f).mem = s.mem := rfl
@[simp] theorem State.onNv_ao (f : Nv → Nv) : (s.onNv f).ao = s.ao := rfl
@[simp] theorem State.onNv_pwr (f : Nv → Nv) : (s.onNv f).pwr = s.pwr := rfl
@[simp] theorem State.onNv_boot (f : Nv → Nv) : (s.onNv f).boot = s.boot := rfl
@[simp] theorem State.onNv_hb (f : Nv → Nv) : (s.onNv f).hb = s.hb := rfl
@[simp] theorem State.onNv_cmd (f : Nv → Nv) : (s.onNv f).cmd = s.cmd := rfl
@[simp] theorem State.onNv_keep (f : Nv → Nv) : (s.onNv f).keep = s.keep := rfl
@[simp] theorem State.onNv_vd (f : Nv → Nv) : (s.onNv f).vd = s.vd := rfl
@[simp] theorem State.onNv_door (f : Nv → Nv) : (s.onNv f).door = s.door := rfl
@[simp] theorem State.onNv_pb (f : Nv → Nv) : (s.onNv f).pb = s.pb := rfl
@[simp] theorem State.onNv_rx (f : Nv → Nv) : (s.onNv f).rx = s.rx := rfl
@[simp] theorem State.onNv_jug (f : Nv → Nv) : (s.onNv f).jug = s.jug := rfl
@[simp] theorem State.onNv_car (f : Nv → Nv) : (s.onNv f).car = s.car := rfl
@[simp] theorem State.onNv_fm (f : Nv → Nv) : (s.onNv f).fm = s.fm := rfl
@[simp] theorem State.onNv_err (f : Nv → Nv) : (s.onNv f).err = s.err := rfl
@[simp] theorem State.onNv_free (f : Nv → Nv) : (s.onNv f).free = s.free := rfl

@[simp] theorem State.onAo_pending (f : Ao → Ao) : (s.onAo f).pending = s.pending := rfl
@[simp] theorem State.onAo_phase (f : Ao → Ao) : (s.onAo f).phase = s.phase := rfl
@[simp] theorem State.onAo_nv (f : Ao → Ao) : (s.onAo f).nv = s.nv := rfl
@[simp] theorem State.onAo_mem (f : Ao → Ao) : (s.onAo f).mem = s.mem := rfl
@[simp] theorem State.onAo_ao (f : Ao → Ao) : (s.onAo f).ao = f s.ao := rfl
@[simp] theorem State.onAo_pwr (f : Ao → Ao) : (s.onAo f).pwr = s.pwr := rfl
@[simp] theorem State.onAo_boot (f : Ao → Ao) : (s.onAo f).boot = s.boot := rfl
@[simp] theorem State.onAo_hb (f : Ao → Ao) : (s.onAo f).hb = s.hb := rfl
@[simp] theorem State.onAo_cmd (f : Ao → Ao) : (s.onAo f).cmd = s.cmd := rfl
@[simp] theorem State.onAo_keep (f : Ao → Ao) : (s.onAo f).keep = s.keep := rfl
@[simp] theorem State.onAo_vd (f : Ao → Ao) : (s.onAo f).vd = s.vd := rfl
@[simp] theorem State.onAo_door (f : Ao → Ao) : (s.onAo f).door = s.door := rfl
@[simp] theorem State.onAo_pb (f : Ao → Ao) : (s.onAo f).pb = s.pb := rfl
@[simp] theorem State.onAo_rx (f : Ao → Ao) : (s.onAo f).rx = s.rx := rfl
@[simp] theorem State.onAo_jug (f : Ao → Ao) : (s.onAo f).jug = s.jug := rfl
@[simp] theorem State.onAo_car (f : Ao → Ao) : (s.onAo f).car = s.car := rfl
@[simp] theorem State.onAo_fm (f : Ao → Ao) : (s.onAo f).fm = s.fm := rfl
@[simp] theorem State.onAo_err (f : Ao → Ao) : (s.onAo f).err = s.err := rfl
@[simp] theorem State.onAo_free (f : Ao → Ao) : (s.onAo f).free = s.free := rfl

@[simp] theorem State.onPwr_pending (f : Pwr → Pwr) : (s.onPwr f).pending = s.pending := rfl
@[simp] theorem State.onPwr_phase (f : Pwr → Pwr) : (s.onPwr f).phase = s.phase := rfl
@[simp] theorem State.onPwr_nv (f : Pwr → Pwr) : (s.onPwr f).nv = s.nv := rfl
@[simp] theorem State.onPwr_mem (f : Pwr → Pwr) : (s.onPwr f).mem = s.mem := rfl
@[simp] theorem State.onPwr_ao (f : Pwr → Pwr) : (s.onPwr f).ao = s.ao := rfl
@[simp] theorem State.onPwr_pwr (f : Pwr → Pwr) : (s.onPwr f).pwr = f s.pwr := rfl
@[simp] theorem State.onPwr_boot (f : Pwr → Pwr) : (s.onPwr f).boot = s.boot := rfl
@[simp] theorem State.onPwr_hb (f : Pwr → Pwr) : (s.onPwr f).hb = s.hb := rfl
@[simp] theorem State.onPwr_cmd (f : Pwr → Pwr) : (s.onPwr f).cmd = s.cmd := rfl
@[simp] theorem State.onPwr_keep (f : Pwr → Pwr) : (s.onPwr f).keep = s.keep := rfl
@[simp] theorem State.onPwr_vd (f : Pwr → Pwr) : (s.onPwr f).vd = s.vd := rfl
@[simp] theorem State.onPwr_door (f : Pwr → Pwr) : (s.onPwr f).door = s.door := rfl
@[simp] theorem State.onPwr_pb (f : Pwr → Pwr) : (s.onPwr f).pb = s.pb := rfl
@[simp] theorem State.onPwr_rx (f : Pwr → Pwr) : (s.onPwr f).rx = s.rx := rfl
@[simp] theorem State.onPwr_jug (f : Pwr → Pwr) : (s.onPwr f).jug = s.jug := rfl
@[simp] theorem State.onPwr_car (f : Pwr → Pwr) : (s.onPwr f).car = s.car := rfl
@[simp] theorem State.onPwr_fm (f : Pwr → Pwr) : (s.onPwr f).fm = s.fm := rfl
@[simp] theorem State.onPwr_err (f : Pwr → Pwr) : (s.onPwr f).err = s.err := rfl
@[simp] theorem State.onPwr_free (f : Pwr → Pwr) : (s.onPwr f).free = s.free := rfl

@[simp] theorem State.onBoot_pending (f : Boot → Boot) : (s.onBoot f).pending = s.pending := rfl
@[simp] theorem State.onBoot_phase (f : Boot → Boot) : (s.onBoot f).phase = s.phase := rfl
@[simp] theorem State.onBoot_nv (f : Boot → Boot) : (s.onBoot f).nv = s.nv := rfl
@[simp] theorem State.onBoot_mem (f : Boot → Boot) : (s.onBoot f).mem = s.mem := rfl
@[simp] theorem State.onBoot_ao (f : Boot → Boot) : (s.onBoot f).ao = s.ao := rfl
@[simp] theorem State.onBoot_pwr (f : Boot → Boot) : (s.onBoot f).pwr = s.pwr := rfl
@[simp] theorem State.onBoot_boot (f : Boot → Boot) : (s.onBoot f).boot = f s.boot := rfl
@[simp] theorem State.onBoot_hb (f : Boot → Boot) : (s.onBoot f).hb = s.hb := rfl
@[simp] theorem State.onBoot_cmd (f : Boot → Boot) : (s.onBoot f).cmd = s.cmd := rfl
@[simp] theorem State.onBoot_keep (f : Boot → Boot) : (s.onBoot f).keep = s.keep := rfl
@[simp] theorem State.onBoot_vd (f : Boot → Boot) : (s.onBoot f).vd = s.vd := rfl
@[simp] theorem State.onBoot_door (f : Boot → Boot) : (s.onBoot f).door = s.door := rfl
@[simp] theorem State.onBoot_pb (f : Boot → Boot) : (s.onBoot f).pb = s.pb := rfl
@[simp] theorem State.onBoot_rx (f : Boot → Boot) : (s.onBoot f).rx = s.rx := rfl
@[simp] theorem State.onBoot_jug (f : Boot → Boot) : (s.onBoot f).jug = s.jug := rfl
@[simp] theorem State.onBoot_car (f : Boot → Boot) : (s.onBoot f).car = s.car := rfl
@[simp] theorem State.onBoot_fm (f : Boot → Boot) : (s.onBoot f).fm = s.fm := rfl
@[simp] theorem State.onBoot_err (f : Boot → Boot) : (s.onBoot f).err = s.err := rfl
@[simp] theorem State.onBoot_free (f : Boot → Boot) : (s.onBoot f).free = s.free := rfl

@[simp] theorem State.onHb_pending (f : Hb → Hb) : (s.onHb f).pending = s.pending := rfl
@[simp] theorem State.onHb_phase (f : Hb → Hb) : (s.onHb f).phase = s.phase := rfl
@[simp] theorem State.onHb_nv (f : Hb → Hb) : (s.onHb f).nv = s.nv := rfl
@[simp] theorem State.onHb_mem (f : Hb → Hb) : (s.onHb f).mem = s.mem := rfl
@[simp] theorem State.onHb_ao (f : Hb → Hb) : (s.onHb f).ao = s.ao := rfl
@[simp] theorem State.onHb_pwr (f : Hb → Hb) : (s.onHb f).pwr = s.pwr := rfl
@[simp] theorem State.onHb_boot (f : Hb → Hb) : (s.onHb f).boot = s.boot := rfl
@[simp] theorem State.onHb_hb (f : Hb → Hb) : (s.onHb f).hb = f s.hb := rfl
@[simp] theorem State.onHb_cmd (f : Hb → Hb) : (s.onHb f).cmd = s.cmd := rfl
@[simp] theorem State.onHb_keep (f : Hb → Hb) : (s.onHb f).keep = s.keep := rfl
@[simp] theorem State.onHb_vd (f : Hb → Hb) : (s.onHb f).vd = s.vd := rfl
@[simp] theorem State.onHb_door (f : Hb → Hb) : (s.onHb f).door = s.door := rfl
@[simp] theorem State.onHb_pb (f : Hb → Hb) : (s.onHb f).pb = s.pb := rfl
@[simp] theorem State.onHb_rx (f : Hb → Hb) : (s.onHb f).rx = s.rx := rfl
@[simp] theorem State.onHb_jug (f : Hb → Hb) : (s.onHb f).jug = s.jug := rfl
@[simp] theorem State.onHb_car (f : Hb → Hb) : (s.onHb f).car = s.car := rfl
@[simp] theorem State.onHb_fm (f : Hb → Hb) : (s.onHb f).fm = s.fm := rfl
@[simp] theorem State.onHb_err (f : Hb → Hb) : (s.onHb f).err = s.err := rfl
@[simp] theorem State.onHb_free (f : Hb → Hb) : (s.onHb f).free = s.free := rfl

@[simp] theorem State.onCmd_pending (f : Cmd → Cmd) : (s.onCmd f).pending = s.pending := rfl
@[simp] theorem State.onCmd_phase (f : Cmd → Cmd) : (s.onCmd f).phase = s.phase := rfl
@[simp] theorem State.onCmd_nv (f : Cmd → Cmd) : (s.onCmd f).nv = s.nv := rfl
@[simp] theorem State.onCmd_mem (f : Cmd → Cmd) : (s.onCmd f).mem = s.mem := rfl
@[simp] theorem State.onCmd_ao (f : Cmd → Cmd) : (s.onCmd f).ao = s.ao := rfl
@[simp] theorem State.onCmd_pwr (f : Cmd → Cmd) : (s.onCmd f).pwr = s.pwr := rfl
@[simp] theorem State.onCmd_boot (f : Cmd → Cmd) : (s.onCmd f).boot = s.boot := rfl
@[simp] theorem State.onCmd_hb (f : Cmd → Cmd) : (s.onCmd f).hb = s.hb := rfl
@[simp] theorem State.onCmd_cmd (f : Cmd → Cmd) : (s.onCmd f).cmd = f s.cmd := rfl
@[simp] theorem State.onCmd_keep (f : Cmd → Cmd) : (s.onCmd f).keep = s.keep := rfl
@[simp] theorem State.onCmd_vd (f : Cmd → Cmd) : (s.onCmd f).vd = s.vd := rfl
@[simp] theorem State.onCmd_door (f : Cmd → Cmd) : (s.onCmd f).door = s.door := rfl
@[simp] theorem State.onCmd_pb (f : Cmd → Cmd) : (s.onCmd f).pb = s.pb := rfl
@[simp] theorem State.onCmd_rx (f : Cmd → Cmd) : (s.onCmd f).rx = s.rx := rfl
@[simp] theorem State.onCmd_jug (f : Cmd → Cmd) : (s.onCmd f).jug = s.jug := rfl
@[simp] theorem State.onCmd_car (f : Cmd → Cmd) : (s.onCmd f).car = s.car := rfl
@[simp] theorem State.onCmd_fm (f : Cmd → Cmd) : (s.onCmd f).fm = s.fm := rfl
@[simp] theorem State.onCmd_err (f : Cmd → Cmd) : (s.onCmd f).err = s.err := rfl
@[simp] theorem State.onCmd_free (f : Cmd → Cmd) : (s.onCmd f).free = s.free := rfl

@[simp] theorem State.onKeep_pending (f : Keep → Keep) : (s.onKeep f).pending = s.pending := rfl
@[simp] theorem State.onKeep_phase (f : Keep → Keep) : (s.onKeep f).phase = s.phase := rfl
@[simp] theorem State.onKeep_nv (f : Keep → Keep) : (s.onKeep f).nv = s.nv := rfl
@[simp] theorem State.onKeep_mem (f : Keep → Keep) : (s.onKeep f).mem = s.mem := rfl
@[simp] theorem State.onKeep_ao (f : Keep → Keep) : (s.onKeep f).ao = s.ao := rfl
@[simp] theorem State.onKeep_pwr (f : Keep → Keep) : (s.onKeep f).pwr = s.pwr := rfl
@[simp] theorem State.onKeep_boot (f : Keep → Keep) : (s.onKeep f).boot = s.boot := rfl
@[simp] theorem State.onKeep_hb (f : Keep → Keep) : (s.onKeep f).hb = s.hb := rfl
@[simp] theorem State.onKeep_cmd (f : Keep → Keep) : (s.onKeep f).cmd = s.cmd := rfl
@[simp] theorem State.onKeep_keep (f : Keep → Keep) : (s.onKeep f).keep = f s.keep := rfl
@[simp] theorem State.onKeep_vd (f : Keep → Keep) : (s.onKeep f).vd = s.vd := rfl
@[simp] theorem State.onKeep_door (f : Keep → Keep) : (s.onKeep f).door = s.door := rfl
@[simp] theorem State.onKeep_pb (f : Keep → Keep) : (s.onKeep f).pb = s.pb := rfl
@[simp] theorem State.onKeep_rx (f : Keep → Keep) : (s.onKeep f).rx = s.rx := rfl
@[simp] theorem State.onKeep_jug (f : Keep → Keep) : (s.onKeep f).jug = s.jug := rfl
@[simp] theorem State.onKeep_car (f : Keep → Keep) : (s.onKeep f).car = s.car := rfl
@[simp] theorem State.onKeep_fm (f : Keep → Keep) : (s.onKeep f).fm = s.fm := rfl
@[simp] theorem State.onKeep_err (f : Keep → Keep) : (s.onKeep f).err = s.err := rfl
@[simp] theorem State.onKeep_free (f : Keep → Keep) : (s.onKeep f).free = s.free := rfl

@[simp] theorem State.onVd_pending (f : Vd → Vd) : (s.onVd f).pending = s.pending := rfl
@[simp] theorem State.onVd_phase (f : Vd → Vd) : (s.onVd f).phase = s.phase := rfl
@[simp] theorem State.onVd_nv (f : Vd → Vd) : (s.onVd f).nv = s.nv := rfl
@[simp] theorem State.onVd_mem (f : Vd → Vd) : (s.onVd f).mem = s.mem := rfl
@[simp] theorem State.onVd_ao (f : Vd → Vd) : (s.onVd f).ao = s.ao := rfl
@[simp] theorem State.onVd_pwr (f : Vd → Vd) : (s.onVd f).pwr = s.pwr := rfl
@[simp] theorem State.onVd_boot (f : Vd → Vd) : (s.onVd f).boot = s.boot := rfl
@[simp] theorem State.onVd_hb (f : Vd → Vd) : (s.onVd f).hb = s.hb := rfl
@[simp] theorem State.onVd_cmd (f : Vd → Vd) : (s.onVd f).cmd = s.cmd := rfl
@[simp] theorem State.onVd_keep (f : Vd → Vd) : (s.onVd f).keep = s.keep := rfl
@[simp] theorem State.onVd_vd (f : Vd → Vd) : (s.onVd f).vd = f s.vd := rfl
@[simp] theorem State.onVd_door (f : Vd → Vd) : (s.onVd f).door = s.door := rfl
@[simp] theorem State.onVd_pb (f : Vd → Vd) : (s.onVd f).pb = s.pb := rfl
@[simp] theorem State.onVd_rx (f : Vd → Vd) : (s.onVd f).rx = s.rx := rfl
@[simp] theorem State.onVd_jug (f : Vd → Vd) : (s.onVd f).jug = s.jug := rfl
@[simp] theorem State.onVd_car (f : Vd → Vd) : (s.onVd f).car = s.car := rfl
@[simp] theorem State.onVd_fm (f : Vd → Vd) : (s.onVd f).fm = s.fm := rfl
@[simp] theorem State.onVd_err (f : Vd → Vd) : (s.onVd f).err = s.err := rfl
@[simp] theorem State.onVd_free (f : Vd → Vd) : (s.onVd f).free = s.free := rfl

@[simp] theorem State.onDoor_pending (f : Door → Door) : (s.onDoor f).pending = s.pending := rfl
@[simp] theorem State.onDoor_phase (f : Door → Door) : (s.onDoor f).phase = s.phase := rfl
@[simp] theorem State.onDoor_nv (f : Door → Door) : (s.onDoor f).nv = s.nv := rfl
@[simp] theorem State.onDoor_mem (f : Door → Door) : (s.onDoor f).mem = s.mem := rfl
@[simp] theorem State.onDoor_ao (f : Door → Door) : (s.onDoor f).ao = s.ao := rfl
@[simp] theorem State.onDoor_pwr (f : Door → Door) : (s.onDoor f).pwr = s.pwr := rfl
@[simp] theorem State.onDoor_boot (f : Door → Door) : (s.onDoor f).boot = s.boot := rfl
@[simp] theorem State.onDoor_hb (f : Door → Door) : (s.onDoor f).hb = s.hb := rfl
@[simp] theorem State.onDoor_cmd (f : Door → Door) : (s.onDoor f).cmd = s.cmd := rfl
@[simp] theorem State.onDoor_keep (f : Door → Door) : (s.onDoor f).keep = s.keep := rfl
@[simp] theorem State.onDoor_vd (f : Door → Door) : (s.onDoor f).vd = s.vd := rfl
@[simp] theorem State.onDoor_door (f : Door → Door) : (s.onDoor f).door = f s.door := rfl
@[simp] theorem State.onDoor_pb (f : Door → Door) : (s.onDoor f).pb = s.pb := rfl
@[simp] theorem State.onDoor_rx (f : Door → Door) : (s.onDoor f).rx = s.rx := rfl
@[simp] theorem State.onDoor_jug (f : Door → Door) : (s.onDoor f).jug = s.jug := rfl
@[simp] theorem State.onDoor_car (f : Door → Door) : (s.onDoor f).car = s.car := rfl
@[simp] theorem State.onDoor_fm (f : Door → Door) : (s.onDoor f).fm = s.fm := rfl
@[simp] theorem State.onDoor_err (f : Door → Door) : (s.onDoor f).err = s.err := rfl
@[simp] theorem State.onDoor_free (f : Door → Door) : (s.onDoor f).free = s.free := rfl

@[simp] theorem State.onPb_pending (f : Pb → Pb) : (s.onPb f).pending = s.pending := rfl
@[simp] theorem State.onPb_phase (f : Pb → Pb) : (s.onPb f).phase = s.phase := rfl
@[simp] theorem State.onPb_nv (f : Pb → Pb) : (s.onPb f).nv = s.nv := rfl
@[simp] theorem State.onPb_mem (f : Pb → Pb) : (s.onPb f).mem = s.mem := rfl
@[simp] theorem State.onPb_ao (f : Pb → Pb) : (s.onPb f).ao = s.ao := rfl
@[simp] theorem State.onPb_pwr (f : Pb → Pb) : (s.onPb f).pwr = s.pwr := rfl
@[simp] theorem State.onPb_boot (f : Pb → Pb) : (s.onPb f).boot = s.boot := rfl
@[simp] theorem State.onPb_hb (f : Pb → Pb) : (s.onPb f).hb = s.hb := rfl
@[simp] theorem State.onPb_cmd (f : Pb → Pb) : (s.onPb f).cmd = s.cmd := rfl
@[simp] theorem State.onPb_keep (f : Pb → Pb) : (s.onPb f).keep = s.keep := rfl
@[simp] theorem State.onPb_vd (f : Pb → Pb) : (s.onPb f).vd = s.vd := rfl
@[simp] theorem State.onPb_door (f : Pb → Pb) : (s.onPb f).door = s.door := rfl
@[simp] theorem State.onPb_pb (f : Pb → Pb) : (s.onPb f).pb = f s.pb := rfl
@[simp] theorem State.onPb_rx (f : Pb → Pb) : (s.onPb f).rx = s.rx := rfl
@[simp] theorem State.onPb_jug (f : Pb → Pb) : (s.onPb f).jug = s.jug := rfl
@[simp] theorem State.onPb_car (f : Pb → Pb) : (s.onPb f).car = s.car := rfl
@[simp] theorem State.onPb_fm (f : Pb → Pb) : (s.onPb f).fm = s.fm := rfl
@[simp] theorem State.onPb_err (f : Pb → Pb) : (s.onPb f).err = s.err := rfl
@[simp] theorem State.onPb_free (f : Pb → Pb) : (s.onPb f).free = s.free := rfl

@[simp] theorem State.onRx_pending (f : Rx → Rx) : (s.onRx f).pending = s.pending := rfl
@[simp] theorem State.onRx_phase (f : Rx → Rx) : (s.onRx f).phase = s.phase := rfl
@[simp] theorem State.onRx_nv (f : Rx → Rx) : (s.onRx f).nv = s.nv := rfl
@[simp] theorem State.onRx_mem (f : Rx → Rx) : (s.onRx f).mem = s.mem := rfl
@[simp] theorem State.onRx_ao (f : Rx → Rx) : (s.onRx f).ao = s.ao := rfl
@[simp] theorem State.onRx_pwr (f : Rx → Rx) : (s.onRx f).pwr = s.pwr := rfl
@[simp] theorem State.onRx_boot (f : Rx → Rx) : (s.onRx f).boot = s.boot := rfl
@[simp] theorem State.onRx_hb (f : Rx → Rx) : (s.onRx f).hb = s.hb := rfl
@[simp] theorem State.onRx_cmd (f : Rx → Rx) : (s.onRx f).cmd = s.cmd := rfl
@[simp] theorem State.onRx_keep (f : Rx → Rx) : (s.onRx f).keep = s.keep := rfl
@[simp] theorem State.onRx_vd (f : Rx → Rx) : (s.onRx f).vd = s.vd := rfl
@[simp] theorem State.onRx_door (f : Rx → Rx) : (s.onRx f).door = s.door := rfl
@[simp] theorem State.onRx_pb (f : Rx → Rx) : (s.onRx f).pb = s.pb := rfl
@[simp] theorem State.onRx_rx (f : Rx → Rx) : (s.onRx f).rx = f s.rx := rfl
@[simp] theorem State.onRx_jug (f : Rx → Rx) : (s.onRx f).jug = s.jug := rfl
@[simp] theorem State.onRx_car (f : Rx → Rx) : (s.onRx f).car = s.car := rfl
@[simp] theorem State.onRx_fm (f : Rx → Rx) : (s.onRx f).fm = s.fm := rfl
@[simp] theorem State.onRx_err (f : Rx → Rx) : (s.onRx f).err = s.err := rfl
@[simp] theorem State.onRx_free (f : Rx → Rx) : (s.onRx f).free = s.free := rfl

@[simp] theorem State.onJug_pending (f : Jug → Jug) : (s.onJug f).pending = s.pending := rfl
@[simp] theorem State.onJug_phase (f : Jug → Jug) : (s.onJug f).phase = s.phase := rfl
@[simp] theorem State.onJug_nv (f : Jug → Jug) : (s.onJug f).nv = s.nv := rfl
@[simp] theorem State.onJug_mem (f : Jug → Jug) : (s.onJug f).mem = s.mem := rfl
@[simp] theorem State.onJug_ao (f : Jug → Jug) : (s.onJug f).ao = s.ao := rfl
@[simp] theorem State.onJug_pwr (f : Jug → Jug) : (s.onJug f).pwr = s.pwr := rfl
@[simp] theorem State.onJug_boot (f : Jug → Jug) : (s.onJug f).boot = s.boot := rfl
@[simp] theorem State.onJug_hb (f : Jug → Jug) : (s.onJug f).hb = s.hb := rfl
@[simp] theorem State.onJug_cmd (f : Jug → Jug) : (s.onJug f).cmd = s.cmd := rfl
@[simp] theorem State.onJug_keep (f : Jug → Jug) : (s.onJug f).keep = s.keep := rfl
@[simp] theorem State.onJug_vd (f : Jug → Jug) : (s.onJug f).vd = s.vd := rfl
@[simp] theorem State.onJug_door (f : Jug → Jug) : (s.onJug f).door = s.door := rfl
@[simp] theorem State.onJug_pb (f : Jug → Jug) : (s.onJug f).pb = s.pb := rfl
@[simp] theorem State.onJug_rx (f : Jug → Jug) : (s.onJug f).rx = s.rx := rfl
@[simp] theorem State.onJug_jug (f : Jug → Jug) : (s.onJug f).jug = f s.jug := rfl
@[simp] theorem State.onJug_car (f : Jug → Jug) : (s.onJug f).car = s.car := rfl
@[simp] theorem State.onJug_fm (f : Jug → Jug) : (s.onJug f).fm = s.fm := rfl
@[simp] theorem State.onJug_err (f : Jug → Jug) : (s.onJug f).err = s.err := rfl
@[simp] theorem State.onJug_free (f : Jug → Jug) : (s.onJug f).free = s.free := rfl

@[simp] theorem State.onCar_pending (f : Car → Car) : (s.onCar f).pending = s.pending := rfl
@[simp] theorem State.onCar_phase (f : Car → Car) : (s.onCar f).phase = s.phase := rfl
@[simp] theorem State.onCar_nv (f : Car → Car) : (s.onCar f).nv = s.nv := rfl
@[simp] theorem State.onCar_mem (f : Car → Car) : (s.onCar f).mem = s.mem := rfl
@[simp] theorem State.onCar_ao (f : Car → Car) : (s.onCar f).ao = s.ao := rfl
@[simp] theorem State.onCar_pwr (f : Car → Car) : (s.onCar f).pwr = s.pwr := rfl
@[simp] theorem State.onCar_boot (f : Car → Car) : (s.onCar f).boot = s.boot := rfl
@[simp] theorem State.onCar_hb (f : Car → Car) : (s.onCar f).hb = s.hb := rfl
@[simp] theorem State.onCar_cmd (f : Car → Car) : (s.onCar f).cmd = s.cmd := rfl
@[simp] theorem State.onCar_keep (f : Car → Car) : (s.onCar f).keep = s.keep := rfl
@[simp] theorem State.onCar_vd (f : Car → Car) : (s.onCar f).vd = s.vd := rfl
@[simp] theorem State.onCar_door (f : Car → Car) : (s.onCar f).door = s.door := rfl
@[simp] theorem State.onCar_pb (f : Car → Car) : (s.onCar f).pb = s.pb := rfl
@[simp] theorem State.onCar_rx (f : Car → Car) : (s.onCar f).rx = s.rx := rfl
@[simp] theorem State.onCar_jug (f : Car → Car) : (s.onCar f).jug = s.jug := rfl
@[simp] theorem State.onCar_car (f : Car → Car) : (s.onCar f).car = f s.car := rfl
@[simp] theorem State.onCar_fm (f : Car → Car) : (s.onCar f).fm = s.fm := rfl
@[simp] theorem State.onCar_err (f : Car → Car) : (s.onCar f).err = s.err := rfl
@[simp] theorem State.onCar_free (f : Car → Car) : (s.onCar f).free = s.free := rfl

@[simp] theorem State.onFm_pending (f : Fm → Fm) : (s.onFm f).pending = s.pending := rfl
@[simp] theorem State.onFm_phase (f : Fm → Fm) : (s.onFm f).phase = s.phase := rfl
@[simp] theorem State.onFm_nv (f : Fm → Fm) : (s.onFm f).nv = s.nv := rfl
@[simp] theorem State.onFm_mem (f : Fm → Fm) : (s.onFm f).mem = s.mem := rfl
@[simp] theorem State.onFm_ao (f : Fm → Fm) : (s.onFm f).ao = s.ao := rfl
@[simp] theorem State.onFm_pwr (f : Fm → Fm) : (s.onFm f).pwr = s.pwr := rfl
@[simp] theorem State.onFm_boot (f : Fm → Fm) : (s.onFm f).boot = s.boot := rfl
@[simp] theorem State.onFm_hb (f : Fm → Fm) : (s.onFm f).hb = s.hb := rfl
@[simp] theorem State.onFm_cmd (f : Fm → Fm) : (s.onFm f).cmd = s.cmd := rfl
@[simp] theorem State.onFm_keep (f : Fm → Fm) : (s.onFm f).keep = s.keep := rfl
@[simp] theorem State.onFm_vd (f : Fm → Fm) : (s.onFm f).vd = s.vd := rfl
@[simp] theorem State.onFm_door (f : Fm → Fm) : (s.onFm f).door = s.door := rfl
@[simp] theorem State.onFm_pb (f : Fm → Fm) : (s.onFm f).pb = s.pb := rfl
@[simp] theorem State.onFm_rx (f : Fm → Fm) : (s.onFm f).rx = s.rx := rfl
@[simp] theorem State.onFm_jug (f : Fm → Fm) : (s.onFm f).jug = s.jug := rfl
@[simp] theorem State.onFm_car (f : Fm → Fm) : (s.onFm f).car = s.car := rfl
@[simp] theorem State.onFm_fm (f : Fm → Fm) : (s.onFm f).fm = f s.fm := rfl
@[simp] theorem State.onFm_err (f : Fm → Fm) : (s.onFm f).err = s.err := rfl
@[simp] theorem State.onFm_free (f : Fm → Fm) : (s.onFm f).free = s.free := rfl

@[simp] theorem State.onErr_pending (f : Err → Err) : (s.onErr f).pending = s.pending := rfl
@[simp] theorem State.onErr_phase (f : Err → Err) : (s.onErr f).phase = s.phase := rfl
@[simp] theorem State.onErr_nv (f : Err → Err) : (s.onErr f).nv = s.nv := rfl
@[simp] theorem State.onErr_mem (f : Err → Err) : (s.onErr f).mem = s.mem := rfl
@[simp] theorem State.onErr_ao (f : Err → Err) : (s.onErr f).ao = s.ao := rfl
@[simp] theorem State.onErr_pwr (f : Err → Err) : (s.onErr f).pwr = s.pwr := rfl
@[simp] theorem State.onErr_boot (f : Err → Err) : (s.onErr f).boot = s.boot := rfl
@[simp] theorem State.onErr_hb (f : Err → Err) : (s.onErr f).hb = s.hb := rfl
@[simp] theorem State.onErr_cmd (f : Err → Err) : (s.onErr f).cmd = s.cmd := rfl
@[simp] theorem State.onErr_keep (f : Err → Err) : (s.onErr f).keep = s.keep := rfl
@[simp] theorem State.onErr_vd (f : Err → Err) : (s.onErr f).vd = s.vd := rfl
@[simp] theorem State.onErr_door (f : Err → Err) : (s.onErr f).door = s.door := rfl
@[simp] theorem State.onErr_pb (f : Err → Err) : (s.onErr f).pb = s.pb := rfl
@[simp] theorem State.onErr_rx (f : Err → Err) : (s.onErr f).rx = s.rx := rfl
@[simp] theorem State.onErr_jug (f : Err → Err) : (s.onErr f).jug = s.jug := rfl
@[simp] theorem State.onErr_car (f : Err → Err) : (s.onErr f).car = s.car := rfl
@[simp] theorem State.onErr_fm (f : Err → Err) : (s.onErr f).fm = s.fm := rfl
@[simp] theorem State.onErr_err (f : Err → Err) : (s.onErr f).err = f s.err := rfl
@[simp] theorem State.onErr_free (f : Err → Err) : (s.onErr f).free = s.free := rfl

@[simp] theorem State.draw_pending : s.draw.pending = s.pending := rfl
@[simp] theorem State.draw_phase : s.draw.phase = s.phase := rfl
@[simp] theorem State.draw_nv : s.draw.nv = s.nv := rfl
@[simp] theorem State.draw_mem : s.draw.mem = s.mem := rfl
@[simp] theorem State.draw_ao : s.draw.ao = s.ao := rfl
@[simp] theorem State.draw_pwr : s.draw.pwr = s.pwr := rfl
@[simp] theorem State.draw_boot : s.draw.boot = s.boot := rfl
@[simp] theorem State.draw_hb : s.draw.hb = s.hb := rfl
@[simp] theorem State.draw_cmd : s.draw.cmd = s.cmd := rfl
@[simp] theorem State.draw_keep : s.draw.keep = s.keep := rfl
@[simp] theorem State.draw_vd : s.draw.vd = s.vd := rfl
@[simp] theorem State.draw_door : s.draw.door = s.door := rfl
@[simp] theorem State.draw_pb : s.draw.pb = s.pb := rfl
@[simp] theorem State.draw_rx : s.draw.rx = s.rx := rfl
@[simp] theorem State.draw_jug : s.draw.jug = s.jug := rfl
@[simp] theorem State.draw_car : s.draw.car = s.car := rfl
@[simp] theorem State.draw_fm : s.draw.fm = s.fm := rfl
@[simp] theorem State.draw_err : s.draw.err = s.err := rfl
@[simp] theorem State.draw_free : s.draw.free = s.free + 1 := rfl

@[simp] theorem State.onBooth_pending : (s.onBooth b g).pending = s.pending := rfl
@[simp] theorem State.onBooth_phase : (s.onBooth b g).phase = s.phase := rfl
@[simp] theorem State.onBooth_nv : (s.onBooth b g).nv = s.nv := rfl
@[simp] theorem State.onBooth_mem : (s.onBooth b g).mem = s.mem := rfl
@[simp] theorem State.onBooth_ao : (s.onBooth b g).ao = s.ao := rfl
@[simp] theorem State.onBooth_pwr : (s.onBooth b g).pwr = s.pwr := rfl
@[simp] theorem State.onBooth_boot : (s.onBooth b g).boot = s.boot := rfl
@[simp] theorem State.onBooth_hb : (s.onBooth b g).hb = s.hb := rfl
@[simp] theorem State.onBooth_keep : (s.onBooth b g).keep = s.keep := rfl
@[simp] theorem State.onBooth_vd : (s.onBooth b g).vd = s.vd := rfl
@[simp] theorem State.onBooth_door : (s.onBooth b g).door = s.door := rfl
@[simp] theorem State.onBooth_pb : (s.onBooth b g).pb = s.pb := rfl
@[simp] theorem State.onBooth_rx : (s.onBooth b g).rx = s.rx := rfl
@[simp] theorem State.onBooth_jug : (s.onBooth b g).jug = s.jug := rfl
@[simp] theorem State.onBooth_car : (s.onBooth b g).car = s.car := rfl
@[simp] theorem State.onBooth_fm : (s.onBooth b g).fm = s.fm := rfl
@[simp] theorem State.onBooth_err : (s.onBooth b g).err = s.err := rfl
@[simp] theorem State.onBooth_free : (s.onBooth b g).free = s.free := rfl

/-- A booth reads from the service group. -/
theorem State.booth_eq : s.booth b = s.cmd.booths.get b := rfl
/-- The updated booth. -/
@[simp] theorem State.onBooth_booth_self : (s.onBooth b g).booth b = g (s.booth b) :=
  Vector.getElem_set_self (xs := s.cmd.booths) (x := g (s.cmd.booths.get b)) b.isLt
/-- Another booth. -/
theorem State.onBooth_booth_ne {c : Booth} (h : c ≠ b) : (s.onBooth b g).booth c = s.booth c :=
  Vector.getElem_set_ne (xs := s.cmd.booths) (x := g (s.cmd.booths.get b)) b.isLt c.isLt (fun e => h (Fin.ext e).symm)
@[simp] theorem State.onBooth_svc : (s.onBooth b g).cmd.svc = s.cmd.svc := rfl
@[simp] theorem State.onBooth_route : (s.onBooth b g).cmd.route = s.cmd.route := rfl
@[simp] theorem State.onBooth_sig : (s.onBooth b g).cmd.sig = s.cmd.sig := rfl
@[simp] theorem State.onBooth_inject : (s.onBooth b g).cmd.inject = s.cmd.inject := rfl

end Sys2Proof.Machine
end

