-- ==== Sys2Proof/Laws/Replies.lean ====
section
/-! SUPPORT. What the shared operations of replies, events and acceptance do, said once each (R34 to R37, R142, R150,
R165). -/

namespace Sys2Proof.Machine

/-! ### Events and replies touch the host bus and the booths only -/

theorem onlyBus_refl (s : State) : OnlyBus s s := rfl
theorem OnlyBus.trans {s t u : State} (h : OnlyBus s t) (k : OnlyBus t u) : OnlyBus s u := by
  unfold OnlyBus at *
  rw [k, h]

theorem OnlyBus.after {s t u : State} (k : OnlyBus t u) (h : OnlyBus s t) : OnlyBus s u := h.trans k
theorem OnlyBus.pending {s t : State} (h : OnlyBus s t) : t.pending = s.pending := by unfold OnlyBus at h; rw [h]
theorem OnlyBus.phase {s t : State} (h : OnlyBus s t) : t.phase = s.phase := by unfold OnlyBus at h; rw [h]
theorem OnlyBus.nv {s t : State} (h : OnlyBus s t) : t.nv = s.nv := by unfold OnlyBus at h; rw [h]
theorem OnlyBus.mem {s t : State} (h : OnlyBus s t) : t.mem = s.mem := by unfold OnlyBus at h; rw [h]
theorem OnlyBus.ao {s t : State} (h : OnlyBus s t) : t.ao = s.ao := by unfold OnlyBus at h; rw [h]
theorem OnlyBus.pwr {s t : State} (h : OnlyBus s t) : t.pwr = s.pwr := by unfold OnlyBus at h; rw [h]
theorem OnlyBus.boot {s t : State} (h : OnlyBus s t) : t.boot = s.boot := by unfold OnlyBus at h; rw [h]
theorem OnlyBus.keep {s t : State} (h : OnlyBus s t) : t.keep = s.keep := by unfold OnlyBus at h; rw [h]
theorem OnlyBus.vd {s t : State} (h : OnlyBus s t) : t.vd = s.vd := by unfold OnlyBus at h; rw [h]
theorem OnlyBus.door {s t : State} (h : OnlyBus s t) : t.door = s.door := by unfold OnlyBus at h; rw [h]
theorem OnlyBus.pb {s t : State} (h : OnlyBus s t) : t.pb = s.pb := by unfold OnlyBus at h; rw [h]
theorem OnlyBus.rx {s t : State} (h : OnlyBus s t) : t.rx = s.rx := by unfold OnlyBus at h; rw [h]
theorem OnlyBus.jug {s t : State} (h : OnlyBus s t) : t.jug = s.jug := by unfold OnlyBus at h; rw [h]
theorem OnlyBus.car {s t : State} (h : OnlyBus s t) : t.car = s.car := by unfold OnlyBus at h; rw [h]
theorem OnlyBus.fm {s t : State} (h : OnlyBus s t) : t.fm = s.fm := by unfold OnlyBus at h; rw [h]
theorem OnlyBus.err {s t : State} (h : OnlyBus s t) : t.err = s.err := by unfold OnlyBus at h; rw [h]
theorem OnlyBus.free {s t : State} (h : OnlyBus s t) : t.free = s.free := by unfold OnlyBus at h; rw [h]
theorem ibrArise_eq (b : Booth) (s : State) :
    ibrArise b s = { s with hb := { s.hb with ibrReq := if ibrOn s b then s.hb.ibrReq ||| (1#8 <<< b.val) else s.hb.ibrReq } } := by
  unfold ibrArise
  split <;> rfl
theorem ibrArise_only (b : Booth) (s : State) : OnlyBus s (ibrArise b s) := by
  rw [ibrArise_eq]; exact rfl
theorem deliver_only (e : Ev) (b : Booth) (s : State) : OnlyBus s (deliver e b s) := by
  unfold deliver
  dsimp only
  split
  · split
    · exact (ibrArise_only _ _).after rfl
    · exact rfl
  · exact rfl
theorem deliverAll_only (e : Ev) : ∀ (bs : List Booth) (s : State), OnlyBus s (deliverAll e bs s)
  | [], s => onlyBus_refl s
  | b :: bs, s => by
    unfold deliverAll
    split
    · exact OnlyBus.trans (deliver_only e b s) (deliverAll_only e bs _)
    · exact deliverAll_only e bs s
theorem raise_only (e : Ev) (s : State) : OnlyBus s (raise e s) := by
  unfold raise
  split
  · exact rfl
  · exact deliverAll_only e _ s
theorem raiseTo_only (e : Ev) (b : Booth) (s : State) : OnlyBus s (raiseTo e b s) := by
  unfold raiseTo
  split
  · exact rfl
  · exact deliver_only e b s
theorem raiseToBoth_only (e : Ev) (b : Booth) (s : State) : OnlyBus s (raiseToBoth e b s) := by
  unfold raiseToBoth
  split
  · exact raiseTo_only e 0 s
  · exact OnlyBus.trans (raiseTo_only e b s) (raiseTo_only e 0 _)
theorem raiseIf_only (c : Bool) (e : Ev) (s : State) : OnlyBus s (raiseIf c e s) := by
  unfold raiseIf
  split
  · exact raise_only e s
  · exact rfl
theorem answer_only (p : Packet) (st : Status) (pl : Bytes) (s : State) : OnlyBus s (answer p st pl s) := by
  unfold answer replyTo pushReply
  exact (ibrArise_only _ _).after rfl

@[simp] theorem ibrArise_pending (b : Booth) (s : State) : (ibrArise b s).pending = s.pending := (ibrArise_only b s).pending
@[simp] theorem ibrArise_phase (b : Booth) (s : State) : (ibrArise b s).phase = s.phase := (ibrArise_only b s).phase
@[simp] theorem ibrArise_nv (b : Booth) (s : State) : (ibrArise b s).nv = s.nv := (ibrArise_only b s).nv
@[simp] theorem ibrArise_mem (b : Booth) (s : State) : (ibrArise b s).mem = s.mem := (ibrArise_only b s).mem
@[simp] theorem ibrArise_ao (b : Booth) (s : State) : (ibrArise b s).ao = s.ao := (ibrArise_only b s).ao
@[simp] theorem ibrArise_pwr (b : Booth) (s : State) : (ibrArise b s).pwr = s.pwr := (ibrArise_only b s).pwr
@[simp] theorem ibrArise_boot (b : Booth) (s : State) : (ibrArise b s).boot = s.boot := (ibrArise_only b s).boot
@[simp] theorem ibrArise_keep (b : Booth) (s : State) : (ibrArise b s).keep = s.keep := (ibrArise_only b s).keep
@[simp] theorem ibrArise_vd (b : Booth) (s : State) : (ibrArise b s).vd = s.vd := (ibrArise_only b s).vd
@[simp] theorem ibrArise_door (b : Booth) (s : State) : (ibrArise b s).door = s.door := (ibrArise_only b s).door
@[simp] theorem ibrArise_pb (b : Booth) (s : State) : (ibrArise b s).pb = s.pb := (ibrArise_only b s).pb
@[simp] theorem ibrArise_rx (b : Booth) (s : State) : (ibrArise b s).rx = s.rx := (ibrArise_only b s).rx
@[simp] theorem ibrArise_jug (b : Booth) (s : State) : (ibrArise b s).jug = s.jug := (ibrArise_only b s).jug
@[simp] theorem ibrArise_car (b : Booth) (s : State) : (ibrArise b s).car = s.car := (ibrArise_only b s).car
@[simp] theorem ibrArise_fm (b : Booth) (s : State) : (ibrArise b s).fm = s.fm := (ibrArise_only b s).fm
@[simp] theorem ibrArise_err (b : Booth) (s : State) : (ibrArise b s).err = s.err := (ibrArise_only b s).err
@[simp] theorem ibrArise_free (b : Booth) (s : State) : (ibrArise b s).free = s.free := (ibrArise_only b s).free

@[simp] theorem deliver_pending (e : Ev) (b : Booth) (s : State) : (deliver e b s).pending = s.pending := (deliver_only e b s).pending
@[simp] theorem deliver_phase (e : Ev) (b : Booth) (s : State) : (deliver e b s).phase = s.phase := (deliver_only e b s).phase
@[simp] theorem deliver_nv (e : Ev) (b : Booth) (s : State) : (deliver e b s).nv = s.nv := (deliver_only e b s).nv
@[simp] theorem deliver_mem (e : Ev) (b : Booth) (s : State) : (deliver e b s).mem = s.mem := (deliver_only e b s).mem
@[simp] theorem deliver_ao (e : Ev) (b : Booth) (s : State) : (deliver e b s).ao = s.ao := (deliver_only e b s).ao
@[simp] theorem deliver_pwr (e : Ev) (b : Booth) (s : State) : (deliver e b s).pwr = s.pwr := (deliver_only e b s).pwr
@[simp] theorem deliver_boot (e : Ev) (b : Booth) (s : State) : (deliver e b s).boot = s.boot := (deliver_only e b s).boot
@[simp] theorem deliver_keep (e : Ev) (b : Booth) (s : State) : (deliver e b s).keep = s.keep := (deliver_only e b s).keep
@[simp] theorem deliver_vd (e : Ev) (b : Booth) (s : State) : (deliver e b s).vd = s.vd := (deliver_only e b s).vd
@[simp] theorem deliver_door (e : Ev) (b : Booth) (s : State) : (deliver e b s).door = s.door := (deliver_only e b s).door
@[simp] theorem deliver_pb (e : Ev) (b : Booth) (s : State) : (deliver e b s).pb = s.pb := (deliver_only e b s).pb
@[simp] theorem deliver_rx (e : Ev) (b : Booth) (s : State) : (deliver e b s).rx = s.rx := (deliver_only e b s).rx
@[simp] theorem deliver_jug (e : Ev) (b : Booth) (s : State) : (deliver e b s).jug = s.jug := (deliver_only e b s).jug
@[simp] theorem deliver_car (e : Ev) (b : Booth) (s : State) : (deliver e b s).car = s.car := (deliver_only e b s).car
@[simp] theorem deliver_fm (e : Ev) (b : Booth) (s : State) : (deliver e b s).fm = s.fm := (deliver_only e b s).fm
@[simp] theorem deliver_err (e : Ev) (b : Booth) (s : State) : (deliver e b s).err = s.err := (deliver_only e b s).err
@[simp] theorem deliver_free (e : Ev) (b : Booth) (s : State) : (deliver e b s).free = s.free := (deliver_only e b s).free

@[simp] theorem raise_pending (e : Ev) (s : State) : (raise e s).pending = s.pending := (raise_only e s).pending
@[simp] theorem raise_phase (e : Ev) (s : State) : (raise e s).phase = s.phase := (raise_only e s).phase
@[simp] theorem raise_nv (e : Ev) (s : State) : (raise e s).nv = s.nv := (raise_only e s).nv
@[simp] theorem raise_mem (e : Ev) (s : State) : (raise e s).mem = s.mem := (raise_only e s).mem
@[simp] theorem raise_ao (e : Ev) (s : State) : (raise e s).ao = s.ao := (raise_only e s).ao
@[simp] theorem raise_pwr (e : Ev) (s : State) : (raise e s).pwr = s.pwr := (raise_only e s).pwr
@[simp] theorem raise_boot (e : Ev) (s : State) : (raise e s).boot = s.boot := (raise_only e s).boot
@[simp] theorem raise_keep (e : Ev) (s : State) : (raise e s).keep = s.keep := (raise_only e s).keep
@[simp] theorem raise_vd (e : Ev) (s : State) : (raise e s).vd = s.vd := (raise_only e s).vd
@[simp] theorem raise_door (e : Ev) (s : State) : (raise e s).door = s.door := (raise_only e s).door
@[simp] theorem raise_pb (e : Ev) (s : State) : (raise e s).pb = s.pb := (raise_only e s).pb
@[simp] theorem raise_rx (e : Ev) (s : State) : (raise e s).rx = s.rx := (raise_only e s).rx
@[simp] theorem raise_jug (e : Ev) (s : State) : (raise e s).jug = s.jug := (raise_only e s).jug
@[simp] theorem raise_car (e : Ev) (s : State) : (raise e s).car = s.car := (raise_only e s).car
@[simp] theorem raise_fm (e : Ev) (s : State) : (raise e s).fm = s.fm := (raise_only e s).fm
@[simp] theorem raise_err (e : Ev) (s : State) : (raise e s).err = s.err := (raise_only e s).err
@[simp] theorem raise_free (e : Ev) (s : State) : (raise e s).free = s.free := (raise_only e s).free

@[simp] theorem raiseTo_pending (e : Ev) (b : Booth) (s : State) : (raiseTo e b s).pending = s.pending := (raiseTo_only e b s).pending
@[simp] theorem raiseTo_phase (e : Ev) (b : Booth) (s : State) : (raiseTo e b s).phase = s.phase := (raiseTo_only e b s).phase
@[simp] theorem raiseTo_nv (e : Ev) (b : Booth) (s : State) : (raiseTo e b s).nv = s.nv := (raiseTo_only e b s).nv
@[simp] theorem raiseTo_mem (e : Ev) (b : Booth) (s : State) : (raiseTo e b s).mem = s.mem := (raiseTo_only e b s).mem
@[simp] theorem raiseTo_ao (e : Ev) (b : Booth) (s : State) : (raiseTo e b s).ao = s.ao := (raiseTo_only e b s).ao
@[simp] theorem raiseTo_pwr (e : Ev) (b : Booth) (s : State) : (raiseTo e b s).pwr = s.pwr := (raiseTo_only e b s).pwr
@[simp] theorem raiseTo_boot (e : Ev) (b : Booth) (s : State) : (raiseTo e b s).boot = s.boot := (raiseTo_only e b s).boot
@[simp] theorem raiseTo_keep (e : Ev) (b : Booth) (s : State) : (raiseTo e b s).keep = s.keep := (raiseTo_only e b s).keep
@[simp] theorem raiseTo_vd (e : Ev) (b : Booth) (s : State) : (raiseTo e b s).vd = s.vd := (raiseTo_only e b s).vd
@[simp] theorem raiseTo_door (e : Ev) (b : Booth) (s : State) : (raiseTo e b s).door = s.door := (raiseTo_only e b s).door
@[simp] theorem raiseTo_pb (e : Ev) (b : Booth) (s : State) : (raiseTo e b s).pb = s.pb := (raiseTo_only e b s).pb
@[simp] theorem raiseTo_rx (e : Ev) (b : Booth) (s : State) : (raiseTo e b s).rx = s.rx := (raiseTo_only e b s).rx
@[simp] theorem raiseTo_jug (e : Ev) (b : Booth) (s : State) : (raiseTo e b s).jug = s.jug := (raiseTo_only e b s).jug
@[simp] theorem raiseTo_car (e : Ev) (b : Booth) (s : State) : (raiseTo e b s).car = s.car := (raiseTo_only e b s).car
@[simp] theorem raiseTo_fm (e : Ev) (b : Booth) (s : State) : (raiseTo e b s).fm = s.fm := (raiseTo_only e b s).fm
@[simp] theorem raiseTo_err (e : Ev) (b : Booth) (s : State) : (raiseTo e b s).err = s.err := (raiseTo_only e b s).err
@[simp] theorem raiseTo_free (e : Ev) (b : Booth) (s : State) : (raiseTo e b s).free = s.free := (raiseTo_only e b s).free

@[simp] theorem raiseToBoth_pending (e : Ev) (b : Booth) (s : State) : (raiseToBoth e b s).pending = s.pending := (raiseToBoth_only e b s).pending
@[simp] theorem raiseToBoth_phase (e : Ev) (b : Booth) (s : State) : (raiseToBoth e b s).phase = s.phase := (raiseToBoth_only e b s).phase
@[simp] theorem raiseToBoth_nv (e : Ev) (b : Booth) (s : State) : (raiseToBoth e b s).nv = s.nv := (raiseToBoth_only e b s).nv
@[simp] theorem raiseToBoth_mem (e : Ev) (b : Booth) (s : State) : (raiseToBoth e b s).mem = s.mem := (raiseToBoth_only e b s).mem
@[simp] theorem raiseToBoth_ao (e : Ev) (b : Booth) (s : State) : (raiseToBoth e b s).ao = s.ao := (raiseToBoth_only e b s).ao
@[simp] theorem raiseToBoth_pwr (e : Ev) (b : Booth) (s : State) : (raiseToBoth e b s).pwr = s.pwr := (raiseToBoth_only e b s).pwr
@[simp] theorem raiseToBoth_boot (e : Ev) (b : Booth) (s : State) : (raiseToBoth e b s).boot = s.boot := (raiseToBoth_only e b s).boot
@[simp] theorem raiseToBoth_keep (e : Ev) (b : Booth) (s : State) : (raiseToBoth e b s).keep = s.keep := (raiseToBoth_only e b s).keep
@[simp] theorem raiseToBoth_vd (e : Ev) (b : Booth) (s : State) : (raiseToBoth e b s).vd = s.vd := (raiseToBoth_only e b s).vd
@[simp] theorem raiseToBoth_door (e : Ev) (b : Booth) (s : State) : (raiseToBoth e b s).door = s.door := (raiseToBoth_only e b s).door
@[simp] theorem raiseToBoth_pb (e : Ev) (b : Booth) (s : State) : (raiseToBoth e b s).pb = s.pb := (raiseToBoth_only e b s).pb
@[simp] theorem raiseToBoth_rx (e : Ev) (b : Booth) (s : State) : (raiseToBoth e b s).rx = s.rx := (raiseToBoth_only e b s).rx
@[simp] theorem raiseToBoth_jug (e : Ev) (b : Booth) (s : State) : (raiseToBoth e b s).jug = s.jug := (raiseToBoth_only e b s).jug
@[simp] theorem raiseToBoth_car (e : Ev) (b : Booth) (s : State) : (raiseToBoth e b s).car = s.car := (raiseToBoth_only e b s).car
@[simp] theorem raiseToBoth_fm (e : Ev) (b : Booth) (s : State) : (raiseToBoth e b s).fm = s.fm := (raiseToBoth_only e b s).fm
@[simp] theorem raiseToBoth_err (e : Ev) (b : Booth) (s : State) : (raiseToBoth e b s).err = s.err := (raiseToBoth_only e b s).err
@[simp] theorem raiseToBoth_free (e : Ev) (b : Booth) (s : State) : (raiseToBoth e b s).free = s.free := (raiseToBoth_only e b s).free

@[simp] theorem raiseIf_pending (c : Bool) (e : Ev) (s : State) : (raiseIf c e s).pending = s.pending := (raiseIf_only c e s).pending
@[simp] theorem raiseIf_phase (c : Bool) (e : Ev) (s : State) : (raiseIf c e s).phase = s.phase := (raiseIf_only c e s).phase
@[simp] theorem raiseIf_nv (c : Bool) (e : Ev) (s : State) : (raiseIf c e s).nv = s.nv := (raiseIf_only c e s).nv
@[simp] theorem raiseIf_mem (c : Bool) (e : Ev) (s : State) : (raiseIf c e s).mem = s.mem := (raiseIf_only c e s).mem
@[simp] theorem raiseIf_ao (c : Bool) (e : Ev) (s : State) : (raiseIf c e s).ao = s.ao := (raiseIf_only c e s).ao
@[simp] theorem raiseIf_pwr (c : Bool) (e : Ev) (s : State) : (raiseIf c e s).pwr = s.pwr := (raiseIf_only c e s).pwr
@[simp] theorem raiseIf_boot (c : Bool) (e : Ev) (s : State) : (raiseIf c e s).boot = s.boot := (raiseIf_only c e s).boot
@[simp] theorem raiseIf_keep (c : Bool) (e : Ev) (s : State) : (raiseIf c e s).keep = s.keep := (raiseIf_only c e s).keep
@[simp] theorem raiseIf_vd (c : Bool) (e : Ev) (s : State) : (raiseIf c e s).vd = s.vd := (raiseIf_only c e s).vd
@[simp] theorem raiseIf_door (c : Bool) (e : Ev) (s : State) : (raiseIf c e s).door = s.door := (raiseIf_only c e s).door
@[simp] theorem raiseIf_pb (c : Bool) (e : Ev) (s : State) : (raiseIf c e s).pb = s.pb := (raiseIf_only c e s).pb
@[simp] theorem raiseIf_rx (c : Bool) (e : Ev) (s : State) : (raiseIf c e s).rx = s.rx := (raiseIf_only c e s).rx
@[simp] theorem raiseIf_jug (c : Bool) (e : Ev) (s : State) : (raiseIf c e s).jug = s.jug := (raiseIf_only c e s).jug
@[simp] theorem raiseIf_car (c : Bool) (e : Ev) (s : State) : (raiseIf c e s).car = s.car := (raiseIf_only c e s).car
@[simp] theorem raiseIf_fm (c : Bool) (e : Ev) (s : State) : (raiseIf c e s).fm = s.fm := (raiseIf_only c e s).fm
@[simp] theorem raiseIf_err (c : Bool) (e : Ev) (s : State) : (raiseIf c e s).err = s.err := (raiseIf_only c e s).err
@[simp] theorem raiseIf_free (c : Bool) (e : Ev) (s : State) : (raiseIf c e s).free = s.free := (raiseIf_only c e s).free

@[simp] theorem answer_pending (p : Packet) (st : Status) (pl : Bytes) (s : State) : (answer p st pl s).pending = s.pending := (answer_only p st pl s).pending
@[simp] theorem answer_phase (p : Packet) (st : Status) (pl : Bytes) (s : State) : (answer p st pl s).phase = s.phase := (answer_only p st pl s).phase
@[simp] theorem answer_nv (p : Packet) (st : Status) (pl : Bytes) (s : State) : (answer p st pl s).nv = s.nv := (answer_only p st pl s).nv
@[simp] theorem answer_mem (p : Packet) (st : Status) (pl : Bytes) (s : State) : (answer p st pl s).mem = s.mem := (answer_only p st pl s).mem
@[simp] theorem answer_ao (p : Packet) (st : Status) (pl : Bytes) (s : State) : (answer p st pl s).ao = s.ao := (answer_only p st pl s).ao
@[simp] theorem answer_pwr (p : Packet) (st : Status) (pl : Bytes) (s : State) : (answer p st pl s).pwr = s.pwr := (answer_only p st pl s).pwr
@[simp] theorem answer_boot (p : Packet) (st : Status) (pl : Bytes) (s : State) : (answer p st pl s).boot = s.boot := (answer_only p st pl s).boot
@[simp] theorem answer_keep (p : Packet) (st : Status) (pl : Bytes) (s : State) : (answer p st pl s).keep = s.keep := (answer_only p st pl s).keep
@[simp] theorem answer_vd (p : Packet) (st : Status) (pl : Bytes) (s : State) : (answer p st pl s).vd = s.vd := (answer_only p st pl s).vd
@[simp] theorem answer_door (p : Packet) (st : Status) (pl : Bytes) (s : State) : (answer p st pl s).door = s.door := (answer_only p st pl s).door
@[simp] theorem answer_pb (p : Packet) (st : Status) (pl : Bytes) (s : State) : (answer p st pl s).pb = s.pb := (answer_only p st pl s).pb
@[simp] theorem answer_rx (p : Packet) (st : Status) (pl : Bytes) (s : State) : (answer p st pl s).rx = s.rx := (answer_only p st pl s).rx
@[simp] theorem answer_jug (p : Packet) (st : Status) (pl : Bytes) (s : State) : (answer p st pl s).jug = s.jug := (answer_only p st pl s).jug
@[simp] theorem answer_car (p : Packet) (st : Status) (pl : Bytes) (s : State) : (answer p st pl s).car = s.car := (answer_only p st pl s).car
@[simp] theorem answer_fm (p : Packet) (st : Status) (pl : Bytes) (s : State) : (answer p st pl s).fm = s.fm := (answer_only p st pl s).fm
@[simp] theorem answer_err (p : Packet) (st : Status) (pl : Bytes) (s : State) : (answer p st pl s).err = s.err := (answer_only p st pl s).err
@[simp] theorem answer_free (p : Packet) (st : Status) (pl : Bytes) (s : State) : (answer p st pl s).free = s.free := (answer_only p st pl s).free


/-! ### What an event leaves of a booth -/

theorem same_cmd {a b c : Cmd} (h : b = { a with booths := b.booths }) (k : c = { b with booths := c.booths }) :
    c = { a with booths := c.booths } := by rw [k, h]
theorem same_hb {a b c : Hb} (h : b = { a with ibrReq := b.ibrReq }) (k : c = { b with ibrReq := c.ibrReq }) :
    c = { a with ibrReq := c.ibrReq } := by rw [k, h]
theorem same_booth {a b c : BoothSt} (h : b = { a with pend := b.pend }) (k : c = { b with pend := c.pend }) :
    c = { a with pend := c.pend } := by rw [k, h]

/-- A booth after an event: only its pending bits differ. -/
theorem deliver_booth (e : Ev) (b c : Booth) (s : State) :
    (deliver e b s).booth c
      = if c = b ∧ (s.booth b).mode = .enabled then
          { s.booth c with
            pend := (s.booth c).pend.set (Fin.ofNat 17 e.place.1)
              ((s.booth c).pend.get (Fin.ofNat 17 e.place.1) ||| 1#32 <<< e.place.2) }
        else s.booth c := by
  by_cases m : (s.booth b).mode = .enabled
  · have d : (deliver e b s).booth c = (s.onBooth b fun x =>
        { x with pend := x.pend.set (Fin.ofNat 17 e.place.1) (x.pend.get (Fin.ofNat 17 e.place.1) ||| 1#32 <<< e.place.2) }).booth c := by
      unfold deliver
      rw [if_pos m]
      dsimp only
      split
      · rw [ibrArise_eq]; rfl
      · rfl
    rw [d]
    by_cases h : c = b
    · subst h
      rw [if_pos ⟨rfl, m⟩]
      exact State.onBooth_booth_self _ _ _
    · rw [if_neg (fun x => h x.1)]
      exact State.onBooth_booth_ne _ _ _ h
  · rw [if_neg (fun x => m x.2)]
    unfold deliver
    rw [if_neg m]

/-- An event changes nothing of the service group but pending bits. -/
theorem deliver_cmd (e : Ev) (b : Booth) (s : State) :
    (deliver e b s).cmd = { s.cmd with booths := (deliver e b s).cmd.booths } := by
  unfold deliver
  dsimp only
  split
  · split
    · rw [ibrArise_eq]; rfl
    · rfl
  · rfl
theorem deliverAll_cmd (e : Ev) : ∀ (bs : List Booth) (s : State),
    (deliverAll e bs s).cmd = { s.cmd with booths := (deliverAll e bs s).cmd.booths }
  | [], s => rfl
  | b :: bs, s => by
    unfold deliverAll
    split
    · exact same_cmd (deliver_cmd e b s) (deliverAll_cmd e bs _)
    · exact deliverAll_cmd e bs s
theorem raise_cmd (e : Ev) (s : State) : (raise e s).cmd = { s.cmd with booths := (raise e s).cmd.booths } := by
  unfold raise
  split
  · rfl
  · exact deliverAll_cmd e _ s
@[simp] theorem raise_svc (e : Ev) (s : State) : (raise e s).cmd.svc = s.cmd.svc := by rw [raise_cmd]
@[simp] theorem raise_route (e : Ev) (s : State) : (raise e s).cmd.route = s.cmd.route := by rw [raise_cmd]
@[simp] theorem raise_sig (e : Ev) (s : State) : (raise e s).cmd.sig = s.cmd.sig := by rw [raise_cmd]
@[simp] theorem raise_inject (e : Ev) (s : State) : (raise e s).cmd.inject = s.cmd.inject := by rw [raise_cmd]

/-- What an event leaves of the host bus: only in-band requests differ. -/
theorem deliver_hb (e : Ev) (b : Booth) (s : State) : (deliver e b s).hb = { s.hb with ibrReq := (deliver e b s).hb.ibrReq } := by
  unfold deliver
  dsimp only
  split
  · split
    · rw [ibrArise_eq]; rfl
    · rfl
  · rfl
theorem deliverAll_hb (e : Ev) : ∀ (bs : List Booth) (s : State),
    (deliverAll e bs s).hb = { s.hb with ibrReq := (deliverAll e bs s).hb.ibrReq }
  | [], s => rfl
  | b :: bs, s => by
    unfold deliverAll
    split
    · exact same_hb (deliver_hb e b s) (deliverAll_hb e bs _)
    · exact deliverAll_hb e bs s
theorem raise_hb (e : Ev) (s : State) : (raise e s).hb = { s.hb with ibrReq := (raise e s).hb.ibrReq } := by
  unfold raise
  split
  · rfl
  · exact deliverAll_hb e _ s

/-- A pending bit once set stays over further deliveries, and a booth keeps all else. -/
theorem deliver_keeps (e : Ev) (b c : Booth) (s : State) :
    (deliver e b s).booth c = { s.booth c with pend := ((deliver e b s).booth c).pend } := by
  rw [deliver_booth]
  split <;> rfl
theorem deliverAll_keeps (e : Ev) (c : Booth) : ∀ (bs : List Booth) (s : State),
    (deliverAll e bs s).booth c = { s.booth c with pend := ((deliverAll e bs s).booth c).pend }
  | [], s => rfl
  | b :: bs, s => by
    unfold deliverAll
    split
    · exact same_booth (deliver_keeps e b c s) (deliverAll_keeps e c bs _)
    · exact deliverAll_keeps e c bs s
/-- After an event a booth keeps everything but its pending bits. -/
theorem raise_keeps (e : Ev) (c : Booth) (s : State) :
    (raise e s).booth c = { s.booth c with pend := ((raise e s).booth c).pend } := by
  unfold raise
  split
  · rfl
  · exact deliverAll_keeps e c _ s
@[simp] theorem raise_mode (e : Ev) (c : Booth) (s : State) : ((raise e s).booth c).mode = (s.booth c).mode := by rw [raise_keeps]
@[simp] theorem raise_replies (e : Ev) (c : Booth) (s : State) : ((raise e s).booth c).replies = (s.booth c).replies := by
  rw [raise_keeps]

theorem deliver_mode (e : Ev) (b c : Booth) (s : State) : ((deliver e b s).booth c).mode = (s.booth c).mode := by
  rw [deliver_keeps]

/-- A delivered event is pending. -/
theorem deliver_pends (e : Ev) (b : Booth) (s : State) (h : (s.booth b).mode = .enabled) : pends e b (deliver e b s) = true := by
  unfold pends
  rw [deliver_booth, if_pos ⟨rfl, h⟩]
  have g : ∀ (v : Vector Word 17) (i : Fin 17) (x : Word), (v.set i x).get i = x := fun v i x =>
    Vector.getElem_set_self (xs := v) (x := x) i.isLt
  dsimp only
  rw [g]
  cases e <;> simp [Ev.place]

theorem get_set_or (v : Vector Word 17) (i j : Fin 17) (m : Word) (n : Nat) (h : (v.get j).getLsbD n = true) :
    ((v.set i (v.get i ||| m)).get j).getLsbD n = true := by
  by_cases k : i = j
  · subst k
    have g : (v.set i (v.get i ||| m)).get i = v.get i ||| m := Vector.getElem_set_self (xs := v) (x := v.get i ||| m) i.isLt
    rw [g, BitVec.getLsbD_or, h, Bool.true_or]
  · have g : (v.set i (v.get i ||| m)).get j = v.get j :=
      Vector.getElem_set_ne (xs := v) (x := v.get i ||| m) i.isLt j.isLt (fun q => k (Fin.ext q))
    rw [g]; exact h

/-- A pending event stays pending over another delivery. -/
theorem deliver_mono (e e' : Ev) (b c : Booth) (s : State) (h : pends e c s = true) : pends e c (deliver e' b s) = true := by
  unfold pends at *
  rw [deliver_booth]
  split
  · exact get_set_or _ _ _ _ _ h
  · exact h
theorem deliverAll_mono (e e' : Ev) (c : Booth) : ∀ (bs : List Booth) (s : State), pends e c s = true → pends e c (deliverAll e' bs s) = true
  | [], _, h => h
  | b :: bs, s, h => by
    unfold deliverAll
    split
    · exact deliverAll_mono e e' c bs _ (deliver_mono e e' b c s h)
    · exact deliverAll_mono e e' c bs s h
theorem raise_mono (e e' : Ev) (c : Booth) (s : State) (h : pends e c s = true) : pends e c (raise e' s) = true := by
  unfold raise
  split
  · exact h
  · exact deliverAll_mono e e' c _ s h

theorem deliver_routed (e : Ev) (b c : Booth) (g : Fin 17) (s : State) : routed (deliver e b s) g c = routed s g c := by
  unfold routed
  rw [deliver_cmd]

theorem deliverAll_pends (e : Ev) (c : Booth) : ∀ (bs : List Booth) (s : State), c ∈ bs → (s.booth c).mode = .enabled →
    routed s (Fin.ofNat 17 e.place.1) c = true → pends e c (deliverAll e bs s) = true
  | [], _, h, _, _ => by cases h
  | b :: bs, s, h, m, r => by
    unfold deliverAll
    by_cases k : c = b
    · subst k
      rw [if_pos r]
      exact deliverAll_mono _ _ _ _ _ (deliver_pends e c s m)
    · have hm : c ∈ bs := by
        cases h with
        | head => exact absurd rfl k
        | tail _ x => exact x
      split
      · exact deliverAll_pends e c bs _ hm (by rw [deliver_mode]; exact m) (by rw [deliver_routed]; exact r)
      · exact deliverAll_pends e c bs s hm m r

theorem mem_allBooths (b : Booth) : b ∈ allBooths := by revert b; decide

/-- A device-wide event is pending for booth 0 and every booth it is routed to (R165). -/
theorem raise_raised (e : Ev) (s : State) (h : s.boot.loader = false) : Raised e s (raise e s) := by
  intro b m r
  unfold raise
  rw [if_neg (by rw [h]; decide)]
  exact deliverAll_pends e b _ s (mem_allBooths b) m r

/-- An event raised stays pending over another. -/
theorem Raised.raise {e e' : Ev} {s t : State} (h : Raised e s t) : Raised e s (raise e' t) :=
  fun b m r => raise_mono e e' b t (h b m r)

/-! ### Acceptance -/

/-- The front of a transaction that an awake device answers. -/
theorem busFront_hears {p : Packet} {s : State} (h : Reaches p s) :
    busFront p.src true s = ({ s with hb := { s.hb with ibrQuiet := quietAfter p.src s, out := [], ack := true } }, true) := by
  unfold busFront
  rw [if_pos h.answers]
  simp [wake, h.awake, setAck, State.onHb]

/-- The selection after the port byte (R111). -/
theorem setSel_hears (p : Packet) (s : State) :
    setSel p.src .command { s with hb := { s.hb with ibrQuiet := quietAfter p.src s, out := [], ack := true } } = { s with hb := heardBus p.src s } := by
  unfold setSel heardBus
  cases h : p.src.path
  · by_cases k : addrMode s = 2
    · have k' : addrMode { s with hb := { s.hb with ibrQuiet := quietAfter p.src s, out := [], ack := true } } = 2 := k
      simp [k, k', State.onHb]
    · have k' : ¬ addrMode { s with hb := { s.hb with ibrQuiet := quietAfter p.src s, out := [], ack := true } } = 2 := k
      simp [k, k', State.onHb]
  · simp

/-- An accepted packet: its body acts on the state in which it stands in the service table. -/
theorem withPacket_accepts {p : Packet} {s : State} (op : Byte) (k : State → State) (h : Accepts p s) :
    withPacket op p k s = k (accepted op p s) := by
  unfold withPacket takePacket
  rw [busFront_hears h.toReaches]
  dsimp only
  rw [h.fits, if_neg (by decide), setSel_hears]
  have h1 : refusalWaiting { s with hb := heardBus p.src s } p.src.booth = false := h.slot
  have h2 : tagOut { s with hb := heardBus p.src s } p.src.booth p.tag = false := h.tag
  have h3 : ¬ (State.booth { s with hb := heardBus p.src s } p.src.booth).depth ≤ depthCount { s with hb := heardBus p.src s } p.src.booth :=
    Nat.not_le.2 h.depth
  have h4 : tableFull { s with hb := heardBus p.src s } p.src.booth = false := h.room
  rw [h1, h2, h4, if_neg (by decide), if_neg (by decide), if_neg h3, if_neg (by decide), if_neg (by decide)]
  rfl

/-- A packet that passes the checks of R142: its own body acts. -/
theorem command_serves {r : OpRow} {n : State → Needs} {m : Needs} {p : Packet} {s : State} (body : State → State)
    (hn : ∀ u, n u = m) (h : Serves r m p s) : command r n p body s = body (accepted r.op p s) := by
  unfold command
  rw [withPacket_accepts _ _ h.toAccepts, hn]
  have e : precheck r m p (accepted r.op p s) = none := by
    unfold precheck
    have a1 : (accepted r.op p s).boot = s.boot := rfl
    have a2 : (accepted r.op p s).phase = s.phase := rfl
    have a3 : (accepted r.op p s).jug = s.jug := rfl
    have a4 : (accepted r.op p s).pwr = s.pwr := rfl
    have a5 : heldOff (accepted r.op p s) = heldOff s := rfl
    rw [a1, a2, a3, a4, a5]
    have o := h.owner
    have ho := h.hold
    have l := h.length
    have j := h.juggler
    have g := h.gates
    have w := h.power
    simp only [h.loader, g]
    cases hr : r.ownerOnly <;> cases hj : m.juggler <;> cases hw : m.power <;> cases hh : r.hold <;>
      cases hp : s.phase <;> simp_all
  simp only [e]

theorem simpleCommand_serves {r : OpRow} {p : Packet} {s : State} (body : State → State) (h : Serves r Needs.none p s) :
    simpleCommand r p body s = body (accepted r.op p s) := command_serves body (fun _ => rfl) h

/-! ### Replies -/

/-- A tag that is not outstanding is nowhere in the service table. -/
theorem filter_fresh {s : State} {b : Booth} {t : Byte} (op : Byte) (h : tagOut s b t = false) :
    (s.cmd.svc ++ [({ booth := b, tag := t, opcode := op } : Svc)]).filter (fun x => !(x.booth = b ∧ x.tag = t)) = s.cmd.svc := by
  unfold tagOut at h
  rw [Bool.or_eq_false_iff] at h
  have e : s.cmd.svc.filter (fun x : Svc => !(x.booth = b ∧ x.tag = t)) = s.cmd.svc := by
    rw [List.filter_eq_self]
    intro x hx
    have := List.any_eq_false.1 h.1 x hx
    simp only [this, Bool.not_false]
  rw [List.filter_append, e]
  simp

/-- A command in service leaves the service table as it was before. -/
theorem dropSvc_accepted {p : Packet} {s : State} (op : Byte) (h : tagOut s p.src.booth p.tag = false) :
    dropSvc p.src.booth p.tag (accepted op p s) = { s with hb := heardBus p.src s } := by
  have e := filter_fresh op h
  unfold dropSvc accepted State.onCmd
  dsimp only
  rw [e]

/-- The answer of a command that has changed nothing of the host bus or the booths. -/
theorem answer_accepted {p : Packet} {s : State} (op : Byte) (st : Status) (pl : Bytes) (h : tagOut s p.src.booth p.tag = false) :
    answer p st pl (accepted op p s) = replied p st pl s := by
  unfold answer replyTo
  rw [dropSvc_accepted op h]
  unfold pushReply
  rw [ibrArise_eq]
  rfl

/-- What is answered at once, in one rewriting: a command of the table whose checks it passes. -/
theorem simpleCommand_answers {r : OpRow} {p : Packet} {s : State} (st : Status) (pl : Bytes) (h : Serves r Needs.none p s) :
    simpleCommand r p (answer p st pl) s = replied p st pl s := by
  rw [simpleCommand_serves _ h, answer_accepted _ _ _ h.tag]

end Sys2Proof.Machine
end

