-- ==== Sys2Proof/Laws/Gates.lean ====
section
/-! SUPPORT. What bringing the gates, the reference and the clock outputs in line may change, once: supplies, radio, pins,
pending events and in-band requests, and nothing else. -/

namespace Sys2Proof.Machine

/-- Nothing that gates and clocks do not own differs: no reply, queue, memory, routine, nonvolatile or boot state; of the
cars, only the partial ones that gating discards (R309). -/
structure GatesOnly (s t : State) : Prop where
  jug : t.jug = s.jug
  mem : t.mem = s.mem
  nv : t.nv = s.nv
  boot : t.boot = s.boot
  phase : t.phase = s.phase
  ao : t.ao = s.ao
  keep : t.keep = s.keep
  vd : t.vd = s.vd
  car : t.car = { s.car with partials := t.car.partials, counters := t.car.counters }
  fm : t.fm = s.fm
  err : t.err = s.err
  svc : t.cmd.svc = s.cmd.svc
  booths : ∀ b, t.booth b = { s.booth b with pend := (t.booth b).pend }

theorem gatesOnly_refl (s : State) : GatesOnly s s := ⟨rfl, rfl, rfl, rfl, rfl, rfl, rfl, rfl, rfl, rfl, rfl, rfl, fun _ => rfl⟩

theorem GatesOnly.trans {s t u : State} (h : GatesOnly s t) (k : GatesOnly t u) : GatesOnly s u :=
  ⟨k.jug.trans h.jug, k.mem.trans h.mem, k.nv.trans h.nv, k.boot.trans h.boot, k.phase.trans h.phase, k.ao.trans h.ao
  , k.keep.trans h.keep, k.vd.trans h.vd, by rw [k.car, h.car], k.fm.trans h.fm, k.err.trans h.err, k.svc.trans h.svc
  , fun b => by rw [k.booths b, h.booths b]⟩

theorem raiseIf_gatesOnly (c : Bool) (e : Ev) (s : State) : GatesOnly s (raiseIf c e s) := by
  refine ⟨by simp, by simp, by simp, by simp, by simp, by simp, by simp, by simp, by simp, by simp, by simp, ?_, fun b => ?_⟩
  · unfold raiseIf; split <;> simp
  · unfold raiseIf; split
    · rw [raise_keeps]
    · rfl

theorem onPwr_gatesOnly (f : Pwr → Pwr) (s : State) : GatesOnly s (s.onPwr f) :=
  ⟨rfl, rfl, rfl, rfl, rfl, rfl, rfl, rfl, rfl, rfl, rfl, rfl, fun _ => rfl⟩

theorem openGate_gatesOnly (i : Nat) (s : State) : GatesOnly s (openGate i s) := by
  unfold openGate
  split
  · exact gatesOnly_refl s
  · split
    · exact onPwr_gatesOnly _ s
    · exact (onPwr_gatesOnly _ s).trans (raiseIf_gatesOnly _ _ _)

theorem count_gatesOnly (c : Counter) (s : State) : GatesOnly s (count c s) :=
  ⟨rfl, rfl, rfl, rfl, rfl, rfl, rfl, rfl, rfl, rfl, rfl, rfl, fun _ => rfl⟩

theorem dropPartials_gatesOnly : ∀ (n : Nat) (s : State), GatesOnly s (dropPartials n s)
  | 0, _ => ⟨rfl, rfl, rfl, rfl, rfl, rfl, rfl, rfl, rfl, rfl, rfl, rfl, fun _ => rfl⟩
  | n + 1, s => (count_gatesOnly .aborted s).trans (dropPartials_gatesOnly n _)

theorem dropRelease_gatesOnly (i : Nat) (s : State) : GatesOnly s (dropRelease i s) := by
  unfold dropRelease
  split
  · exact onPwr_gatesOnly _ s
  · exact gatesOnly_refl s

theorem shutGate_gatesOnly (i : Nat) (s : State) : GatesOnly s (shutGate i s) := by
  unfold shutGate
  refine (dropRelease_gatesOnly i s).trans ?_
  generalize dropRelease i s = u
  dsimp only
  split
  · exact gatesOnly_refl u
  · split
    · exact (dropPartials_gatesOnly _ u).trans (onPwr_gatesOnly _ _)
    · exact onPwr_gatesOnly _ u

theorem regateOne_gatesOnly (i : Nat) (s : State) : GatesOnly s (regateOne i s) := by
  unfold regateOne
  split
  · exact openGate_gatesOnly i s
  · exact shutGate_gatesOnly i s

theorem regateAll_gatesOnly : ∀ (is : List Nat) (s : State), GatesOnly s (regateAll is s)
  | [], s => gatesOnly_refl s
  | i :: is, s => (regateOne_gatesOnly i s).trans (regateAll_gatesOnly is _)

theorem setPin_gatesOnly (i : Fin 7) (l : PinDrive) (s : State) : GatesOnly s (setPin i l s) := by
  unfold setPin
  exact ⟨rfl, rfl, rfl, rfl, rfl, rfl, rfl, rfl, rfl, rfl, rfl, rfl, fun _ => rfl⟩

theorem letGo_gatesOnly (i : Fin 7) (s : State) : GatesOnly s (letGo i s) := by
  unfold letGo
  repeat' split
  all_goals exact ⟨rfl, rfl, rfl, rfl, rfl, rfl, rfl, rfl, rfl, rfl, rfl, rfl, fun _ => rfl⟩

theorem tcxoDrive_gatesOnly (s : State) : GatesOnly s (tcxoDrive s) := by
  unfold tcxoDrive
  split
  · exact gatesOnly_refl s
  · split
    · exact setPin_gatesOnly _ _ s
    · exact letGo_gatesOnly _ s

theorem clocks_gatesOnly (s : State) : GatesOnly s (clocks s) :=
  ⟨rfl, rfl, rfl, rfl, rfl, rfl, rfl, rfl, rfl, rfl, rfl, rfl, fun _ => rfl⟩

/-- Bringing gates, reference and clocks in line changes nothing but what they own (R57, R74 to R79, R250 to R253). -/
theorem radioSettle_gatesOnly (s : State) : GatesOnly s (radioSettle s) :=
  (tcxoDrive_gatesOnly s).trans ((clocks_gatesOnly _).trans (regateAll_gatesOnly _ _))

end Sys2Proof.Machine
end

