-- ==== Sys2Proof/Laws/Log.lean ====
section
/-! SUPPORT. What making and writing a log entry does (R359 to R369), said once: what it leaves alone, and the entry it
leaves when the log takes entries at once. -/

namespace Sys2Proof.Machine

/-- Nothing but the log, the engine that signs checkpoints, the tamper latch, memory errors, entries that wait, the host
bus and the booths differs. -/
def LogOnly (s t : State) : Prop :=
  t = { s with nv := { s.nv with log := t.nv.log }, ao := { s.ao with tamper := t.ao.tamper, tamperStart := t.ao.tamperStart }
               keep := { s.keep with hash := t.keep.hash, cpWanted := t.keep.cpWanted }, vd := { s.vd with wait := t.vd.wait }
               hb := { s.hb with ibrReq := t.hb.ibrReq }, cmd := { s.cmd with booths := t.cmd.booths }, err := t.err }

theorem logOnly_refl (s : State) : LogOnly s s := rfl
theorem LogOnly.trans {s t u : State} (h : LogOnly s t) (k : LogOnly t u) : LogOnly s u := by
  unfold LogOnly at *
  rw [k, h]
theorem LogOnly.after {s t u : State} (k : LogOnly t u) (h : LogOnly s t) : LogOnly s u := h.trans k

theorem raise_logOnly (e : Ev) (s : State) : LogOnly s (raise e s) := by
  have h := raise_only e s
  have a := raise_hb e s
  have b := raise_cmd e s
  unfold OnlyBus at h
  unfold LogOnly
  rw [h]
  dsimp only
  rw [← a, ← b]
theorem raiseIf_logOnly (c : Bool) (e : Ev) (s : State) : LogOnly s (raiseIf c e s) := by
  unfold raiseIf
  split
  · exact raise_logOnly e s
  · exact rfl
theorem repair_logOnly (sp : EccSpace) (a n : Nat) (s : State) : LogOnly s (repair sp a n s) := by
  unfold repair
  split <;> exact rfl
theorem hashNext_logOnly (s : State) : LogOnly s (hashNext s) := by
  unfold hashNext
  split
  · exact rfl
  · split
    · exact rfl
    · split
      · exact rfl
      · split <;> exact rfl

/-- The entry that `writeEntry` puts in front. -/
def entryOf (e : PreEntry) (s : State) : LogEntry :=
  let e0 : LogEntry :=
    { seq := s.nv.log.next, kind := e.kind, flags := e.flags ||| writeFlags s, time := e.time, ms := e.ms, unc := e.unc
      source := e.source, body := padTo 32 e.body, link := [] }
  { e0 with link := (sha256 (chainHead s ++ e0.head)).take 16 }

theorem LogOnly.log {s t : State} (h : LogOnly s t) : t.nv = { s.nv with log := t.nv.log } := by
  unfold LogOnly at h
  exact congrArg State.nv h

/-- Writing an entry touches only what LogOnly names. -/
theorem writeEntry_logOnly (e : PreEntry) (s : State) : LogOnly s (writeEntry e s) := by
  unfold writeEntry
  dsimp only
  generalize hx : s.onNv _ = x
  have hx' : LogOnly s x := by rw [← hx]; exact rfl
  have k1 : LogOnly x (if e.kind = 0x06 then x.onAo fun a => { a with tamper := false, tamperStart := false } else x) := by
    split <;> exact rfl
  generalize (if e.kind = 0x06 then x.onAo fun a => { a with tamper := false, tamperStart := false } else x) = y at *
  have k2 := repair_logOnly .phys (logSlot s.nv.log.next) 64 y
  generalize repair .phys (logSlot s.nv.log.next) 64 y = z at *
  have k3 : LogOnly x z := k1.trans k2
  have k4 := raiseIf_logOnly (decide (16384 ≤ s.nv.log.next) && decide (s.nv.log.release ≤ s.nv.log.next - 16384) && s.nv.log.overCount % 256 == 0) .logOverwrite z
  generalize raiseIf _ .logOverwrite z = w at *
  have k5 := raiseIf_logOnly (logFull z && !logFull s) .logFull w
  generalize raiseIf _ .logFull w = v at *
  have k6 := raiseIf_logOnly (e.kind == 0x10) .logSealed v
  generalize raiseIf _ .logSealed v = q at *
  have k7 := hx'.trans (k3.trans (k4.trans (k5.trans k6)))
  split
  · exact k7.trans ((hashNext_logOnly _).after rfl)
  · exact k7

/-- What stays of the nonvolatile log through steps that only raise events or start an engine. -/
theorem raiseIf_nv_log (c : Bool) (e : Ev) (s : State) : (raiseIf c e s).nv = s.nv := raiseIf_nv c e s
theorem hashNext_nv (s : State) : (hashNext s).nv = s.nv := by
  unfold hashNext
  split
  · rfl
  · split
    · rfl
    · split
      · rfl
      · split <;> rfl
theorem repair_nv (sp : EccSpace) (a n : Nat) (s : State) : (repair sp a n s).nv = s.nv := by
  unfold repair
  split <;> rfl

/-- The log after an entry has been written. -/
theorem writeEntry_log (e : PreEntry) (s : State) :
    (writeEntry e s).nv.log.next = s.nv.log.next + 1
    ∧ (writeEntry e s).nv.log.entries = (entryOf e s :: s.nv.log.entries).take 16384 := by
  unfold writeEntry
  dsimp only
  have h : ∀ (x : State) (c : Bool), (if c then x.onAo fun a => { a with tamper := false, tamperStart := false } else x).nv = x.nv := by
    intro x c
    cases c <;> rfl
  have g : ∀ (x : State), (if e.kind = 0x06 then x.onAo fun a => { a with tamper := false, tamperStart := false } else x).nv = x.nv := by
    intro x
    split <;> rfl
  split
  · rw [hashNext_nv]
    simp only [State.onKeep_nv, raiseIf_nv, repair_nv, g, State.onNv_nv]
    exact ⟨trivial, rfl⟩
  · simp only [raiseIf_nv, repair_nv, g, State.onNv_nv]
    exact ⟨trivial, rfl⟩

/-- An entry made while the log takes entries at once is written at once. -/
theorem logMake_ready {s : State} (h : LogReady s) (kind source : Byte) (flags : Half) (body : Bytes) :
    logMake kind source flags body s
      = writeEntry (entryNow kind source flags body s) (s.onVd fun v => { v with wait := [] }) := by
  have n : nextSeq s = s.nv.log.next := by
    unfold nextSeq
    rw [h.wait]
    rfl
  have r := h.room
  have c : logSealed s = false := by
    unfold logSealed
    rw [h.open_, n]
    simp only [Bool.false_or, decide_eq_false_iff_not]
    omega
  have e : reserve (some (entryNow kind source flags body s)) s
      = s.onVd fun v => { v with wait := v.wait ++ [some (entryNow kind source flags body s)] } := by
    unfold reserve
    rw [c, n, if_neg (by decide), if_neg (by omega)]
  unfold logMake
  dsimp only
  rw [e]
  have w : (s.onVd fun v => { v with wait := v.wait ++ [some (entryNow kind source flags body s)] }).vd.wait
      = [some (entryNow kind source flags body s)] := by
    show s.vd.wait ++ _ = _
    rw [h.wait]
    rfl
  rw [w]
  show flushLog 1 _ = _
  unfold flushLog
  rw [w]
  rfl

theorem logMake_logOnly {s : State} (h : LogReady s) (kind source : Byte) (flags : Half) (body : Bytes) :
    LogOnly s (logMake kind source flags body s) := by
  rw [logMake_ready h]
  exact (writeEntry_logOnly _ _).after rfl

/-- The entry is the newest one. -/
theorem logMake_logged {s : State} (h : LogReady s) (kind source : Byte) (flags : Half) (body : Bytes) :
    Logged kind source body s (logMake kind source flags body s) := by
  rw [logMake_ready h]
  have w := writeEntry_log (entryNow kind source flags body s) (s.onVd fun v => { v with wait := [] })
  refine ⟨w.1, entryOf (entryNow kind source flags body s) (s.onVd fun v => { v with wait := [] }), ?_, rfl, rfl, rfl, rfl⟩
  rw [w.2]
  rfl

/-! ### Pending events and booths survive the writing of an entry -/

theorem raiseIf_mono (c : Bool) (e e' : Ev) (b : Booth) (s : State) (h : pends e b s = true) :
    pends e b (raiseIf c e' s) = true := by
  unfold raiseIf
  split
  · exact raise_mono e e' b s h
  · exact h
theorem repair_cmd (sp : EccSpace) (a n : Nat) (s : State) : (repair sp a n s).cmd = s.cmd := by
  unfold repair
  split <;> rfl
theorem hashNext_cmd (s : State) : (hashNext s).cmd = s.cmd := by
  unfold hashNext
  split
  · rfl
  · split
    · rfl
    · split
      · rfl
      · split <;> rfl
theorem pends_cmd {e : Ev} {b : Booth} {s t : State} (h : t.cmd = s.cmd) : pends e b t = pends e b s := by
  unfold pends State.booth
  rw [h]

/-- An event stays pending when an entry is written. -/
theorem writeEntry_mono (e : Ev) (b : Booth) (x : PreEntry) (s : State) (h : pends e b s = true) :
    pends e b (writeEntry x s) = true := by
  unfold writeEntry
  dsimp only
  have g : ∀ (y : State), (if x.kind = 0x06 then y.onAo fun a => { a with tamper := false, tamperStart := false } else y).cmd = y.cmd := by
    intro y
    split <;> rfl
  split
  · rw [pends_cmd (hashNext_cmd _)]
    apply raiseIf_mono
    apply raiseIf_mono
    apply raiseIf_mono
    rw [pends_cmd (repair_cmd _ _ _ _), pends_cmd (g _)]
    exact h
  · apply raiseIf_mono
    apply raiseIf_mono
    apply raiseIf_mono
    rw [pends_cmd (repair_cmd _ _ _ _), pends_cmd (g _)]
    exact h

theorem logMake_mono {s : State} (h : LogReady s) (kind source : Byte) (flags : Half) (body : Bytes) (e : Ev) (b : Booth)
    (hp : pends e b s = true) : pends e b (logMake kind source flags body s) = true := by
  rw [logMake_ready h]
  exact writeEntry_mono _ _ _ _ hp

/-- An event that was raised before an entry was made stays raised. -/
theorem Raised.log {e : Ev} {s t : State} (h : Raised e s t) (k : LogReady t) (kind source : Byte) (flags : Half) (body : Bytes) :
    Raised e s (logMake kind source flags body t) := fun b m r => logMake_mono k kind source flags body e b (h b m r)

end Sys2Proof.Machine
end

