-- ==== Sys2Proof/Laws/Memory.lean ====
section
/-! SUPPORT. The sparse memories: every operation keeps the canonical form (log 3), a read after a write gives what was
written, and a write leaves every other address alone. -/

namespace Sys2Proof.Machine

/-! ### The canonical form -/

theorem memWfFrom_mono : ∀ {m : Memory} {a b : Nat}, b ≤ a → memWfFrom a m = true → memWfFrom b m = true
  | [], _, _, _, _ => rfl
  | (k, v) :: m, a, b, hab, h => by
    simp only [memWfFrom, Bool.and_eq_true, decide_eq_true_eq] at h ⊢
    exact ⟨⟨by omega, h.1.2⟩, h.2⟩

theorem memSet_wfFrom : ∀ (m : Memory) (lo a : Nat) (b : Byte), lo ≤ a → memWfFrom lo m = true →
    memWfFrom lo (memSet m a b) = true
  | [], lo, a, b, hl, _ => by
    unfold memSet
    split
    · rfl
    · rename_i hb
      simpa [memWfFrom, hl] using hb
  | (k, v) :: m, lo, a, b, hl, h => by
    simp only [memWfFrom, Bool.and_eq_true, decide_eq_true_eq] at h
    unfold memSet
    split
    · split
      · simp only [memWfFrom, Bool.and_eq_true, decide_eq_true_eq]
        exact h
      · rename_i h1 hb
        simp only [memWfFrom, Bool.and_eq_true, decide_eq_true_eq]
        exact ⟨⟨hl, by simpa using hb⟩, ⟨by omega, h.1.2⟩, h.2⟩
    · split
      · rename_i h1 h2
        subst h2
        split
        · exact memWfFrom_mono (by omega) h.2
        · rename_i hb
          simp only [memWfFrom, Bool.and_eq_true, decide_eq_true_eq]
          exact ⟨⟨hl, by simpa using hb⟩, h.2⟩
      · simp only [memWfFrom, Bool.and_eq_true, decide_eq_true_eq]
        exact ⟨h.1, memSet_wfFrom m (k + 1) a b (by omega) h.2⟩

/-- Writing a byte keeps the canonical form. -/
theorem memSet_wf {m : Memory} {a : Nat} {b : Byte} (h : m.wf = true) : (memSet m a b).wf = true :=
  memSet_wfFrom m 0 a b (Nat.zero_le _) h

/-- Writing bytes keeps the canonical form. -/
theorem memWrite_wf : ∀ (bs : Bytes) (m : Memory) (a : Nat), m.wf = true → (memWrite m a bs).wf = true
  | [], _, _, h => h
  | _ :: bs, _, _, h => memWrite_wf bs _ _ (memSet_wf h)

theorem filter_wfFrom (p : Host.Cell → Bool) : ∀ (m : Memory) (lo : Nat), memWfFrom lo m = true →
    memWfFrom lo (m.filter p) = true
  | [], _, _ => rfl
  | (k, v) :: m, lo, h => by
    simp only [memWfFrom, Bool.and_eq_true, decide_eq_true_eq] at h
    have ih := filter_wfFrom p m (k + 1) h.2
    by_cases c : p (k, v) = true
    · rw [List.filter_cons_of_pos c]
      simp only [memWfFrom, Bool.and_eq_true, decide_eq_true_eq]
      exact ⟨h.1, ih⟩
    · rw [List.filter_cons_of_neg c]
      exact memWfFrom_mono (by omega) ih

/-- Zeroing a range keeps the canonical form. -/
theorem memZero_wf {m : Memory} {lo hi : Nat} (h : m.wf = true) : (memZero m lo hi).wf = true := filter_wfFrom _ m 0 h

/-- The memories after reset are in canonical form. -/
theorem reset_mem_wf : State.reset.mem.wf = true ∧ State.reset.jug.code.wf = true ∧ State.reset.jug.win.wf = true :=
  ⟨rfl, rfl, rfl⟩

/-! ### Reading back -/

theorem memGet_below : ∀ {m : Memory} {lo x : Nat}, memWfFrom lo m = true → x < lo → memGet m x = 0
  | [], _, _, _, _ => rfl
  | (k, v) :: m, lo, x, h, hx => by
    simp only [memWfFrom, Bool.and_eq_true, decide_eq_true_eq] at h
    unfold memGet
    rw [if_neg (by omega), if_pos (by omega)]

theorem memGet_memSet_from : ∀ (m : Memory) (lo a x : Nat) (b : Byte), memWfFrom lo m = true →
    memGet (memSet m a b) x = if x = a then b else memGet m x
  | [], lo, a, x, b, _ => by
    unfold memSet
    by_cases hb : b = 0
    · rw [if_pos hb]; split <;> simp_all [memGet]
    · rw [if_neg hb]
      by_cases hx : x = a
      · simp [memGet, hx]
      · have hx' : ¬ a = x := fun e => hx e.symm
        simp [memGet, hx, hx']
  | (k, v) :: m, lo, a, x, b, h => by
    simp only [memWfFrom, Bool.and_eq_true, decide_eq_true_eq] at h
    unfold memSet
    by_cases h1 : a < k
    · rw [if_pos h1]
      by_cases hb : b = 0
      · rw [if_pos hb]
        by_cases hx : x = a
        · subst hx
          rw [if_pos rfl, hb]
          unfold memGet
          rw [if_neg (by omega), if_pos h1]
        · rw [if_neg hx]
      · rw [if_neg hb]
        by_cases hx : x = a
        · subst hx; simp [memGet]
        · rw [if_neg hx]
          conv => lhs; unfold memGet
          rw [if_neg (fun e => hx e.symm)]
          by_cases hl : x < a
          · rw [if_pos hl]
            unfold memGet
            rw [if_neg (by omega), if_pos (by omega)]
          · rw [if_neg hl]
    · rw [if_neg h1]
      by_cases h2 : a = k
      · subst h2
        rw [if_pos rfl]
        by_cases hb : b = 0
        · rw [if_pos hb]
          by_cases hx : x = a
          · subst hx
            rw [if_pos rfl, hb]
            exact memGet_below h.2 (by omega)
          · rw [if_neg hx]
            conv => rhs; unfold memGet
            rw [if_neg (fun e => hx e.symm)]
            by_cases hl : x < a
            · rw [if_pos hl]
              exact memGet_below h.2 (by omega)
            · rw [if_neg hl]
        · rw [if_neg hb]
          by_cases hx : x = a
          · subst hx; simp [memGet]
          · rw [if_neg hx]
            unfold memGet
            have hx' : ¬ a = x := fun e => hx e.symm
            simp only [if_neg hx']
      · rw [if_neg h2]
        have ih := memGet_memSet_from m (k + 1) a x b h.2
        by_cases hx : x = a
        · subst hx
          rw [if_pos rfl] at ih ⊢
          unfold memGet
          rw [if_neg (by omega), if_neg (by omega)]
          exact ih
        · rw [if_neg hx] at ih ⊢
          unfold memGet
          rw [ih]

/-- A byte written is read back, and every other address reads as before. -/
theorem memGet_memSet {m : Memory} {a x : Nat} {b : Byte} (h : m.wf = true) :
    memGet (memSet m a b) x = if x = a then b else memGet m x := memGet_memSet_from m 0 a x b h

/-- Bytes written are read back, and every other address reads as before. -/
theorem memGet_memWrite : ∀ (bs : Bytes) (m : Memory) (a x : Nat), m.wf = true →
    memGet (memWrite m a bs) x = if a ≤ x ∧ x < a + bs.length then bs.getD (x - a) 0 else memGet m x
  | [], m, a, x, _ => by
    rw [if_neg (by simp only [List.length_nil]; omega)]
    rfl
  | b :: bs, m, a, x, h => by
    unfold memWrite
    rw [memGet_memWrite bs _ _ _ (memSet_wf h), memGet_memSet h]
    simp only [List.length_cons]
    by_cases h1 : x = a
    · subst h1
      rw [if_neg (by omega), if_pos rfl, if_pos (by omega), Nat.sub_self]
      rfl
    · by_cases h2 : a + 1 ≤ x ∧ x < a + 1 + bs.length
      · rw [if_pos h2, if_pos (by omega)]
        have : x - a = (x - (a + 1)) + 1 := by omega
        rw [this]
        rfl
      · rw [if_neg h2, if_neg h1, if_neg (by omega)]

/-- Reading a written range gives the bytes written. -/
theorem memRead_memWrite {m : Memory} (h : m.wf = true) (a : Nat) (bs : Bytes) : memRead (memWrite m a bs) a bs.length = bs := by
  have gen : ∀ (n : Nat) (k : Nat), k + n = bs.length → memRead (memWrite m a bs) (a + k) n = bs.drop k := by
    intro n
    induction n with
    | zero =>
      intro k hk
      rw [List.drop_eq_nil_of_le (by omega)]
      rfl
    | succ n ih =>
      intro k hk
      have hlt : k < bs.length := by omega
      rw [List.drop_eq_getElem_cons hlt]
      unfold memRead
      rw [memGet_memWrite bs m a (a + k) h, if_pos (by omega)]
      have e : a + k - a = k := by omega
      rw [e, List.getD_eq_getElem?_getD, List.getElem?_eq_getElem hlt]
      rw [show a + k + 1 = a + (k + 1) by omega, ih (k + 1) (by omega)]
      rfl
  exact gen bs.length 0 (by omega)

/-- A zeroed range reads zeros. -/
theorem memGet_memZero_in {lo hi x : Nat} : ∀ (m : Memory), lo ≤ x → x < hi → memGet (memZero m lo hi) x = 0
  | [], _, _ => rfl
  | (k, v) :: m, h1, h2 => by
    have ih := memGet_memZero_in m h1 h2
    unfold memZero at ih ⊢
    by_cases c : (!(decide (lo ≤ k) && decide (k < hi))) = true
    · rw [List.filter_cons_of_pos (by exact c)]
      unfold memGet
      have : ¬ k = x := by
        intro e
        subst e
        simp [h1, h2] at c
      rw [if_neg this]
      split
      · rfl
      · exact ih
    · rw [List.filter_cons_of_neg (by exact c)]
      exact ih

/-- Outside a zeroed range every address reads as before. -/
theorem memGet_memZero_out {lo hi x : Nat} (hx : ¬ (lo ≤ x ∧ x < hi)) : ∀ (m : Memory) (l : Nat), memWfFrom l m = true →
    memGet (memZero m lo hi) x = memGet m x
  | [], _, _ => rfl
  | (k, v) :: m, l, h => by
    simp only [memWfFrom, Bool.and_eq_true, decide_eq_true_eq] at h
    have ih := memGet_memZero_out hx m (k + 1) h.2
    unfold memZero at ih ⊢
    by_cases c : (!(decide (lo ≤ k) && decide (k < hi))) = true
    · rw [List.filter_cons_of_pos (by exact c)]
      unfold memGet
      rw [ih]
    · rw [List.filter_cons_of_neg (by exact c), ih]
      have hk : lo ≤ k ∧ k < hi := by simpa using c
      conv => rhs; unfold memGet
      rw [if_neg (by omega)]
      by_cases hl : x < k
      · rw [if_pos hl]
        exact memGet_below h.2 (by omega)
      · rw [if_neg hl]

end Sys2Proof.Machine
end

