-- ==== Sys2Proof/Laws/Registers.lean ====
section
/-! SUPPORT. What a register write through the host bus or the debug port does before the register's own effect. -/

namespace Sys2Proof.Machine

/-- An awake device that answers an address acknowledges it, and the quiet time of R124 ends. -/
theorem busFront_awake {src : Src} {w : Bool} {s : State} (h : busAnswers s src w = true) (a : s.hb.asleep = false) :
    busFront src w s = ({ s with hb := { s.hb with ibrQuiet := quietAfter src s, out := [], ack := true } }, true) := by
  unfold busFront
  rw [if_pos h]
  simp [wake, a, setAck, State.onHb]

/-- The selection after an address of the register port (R111, R114). -/
theorem setSel_word (src : Src) (a : Nat) (s : State) :
    setSel src (.register (a + 4)) { s with hb := { s.hb with ibrQuiet := quietAfter src s, out := [], ack := true } }
      = regWritten src a s := by
  unfold setSel regWritten heardWrite
  cases h : src.path
  · by_cases k : addrMode s = 2
    · have k' : addrMode { s with hb := { s.hb with ibrQuiet := quietAfter src s, out := [], ack := true } } = 2 := k
      simp [k, k', State.onHb]
    · have k' : ¬ addrMode { s with hb := { s.hb with ibrQuiet := quietAfter src s, out := [], ack := true } } = 2 := k
      simp [k, k', State.onHb]
  · simp

/-- A register write that reaches the block is the register's own effect on the state with the word heard. -/
theorem regPort_writes {src : Src} {a : Nat} {s : State} (k : State → State) (h : Writes src a s) :
    regPort src a k s = k (regWritten src a s) := by
  unfold regPort
  rw [busFront_awake h.answers h.awake]
  dsimp only
  rw [if_pos rfl]
  unfold writeWord
  dsimp only
  rw [setSel_word, h.loader, if_neg (by decide), if_pos (by rcases h.view with v | v <;> simp [v])]

@[simp] theorem regWritten_nv (src : Src) (a : Nat) (s : State) : (regWritten src a s).nv = s.nv := rfl
@[simp] theorem regWritten_mem (src : Src) (a : Nat) (s : State) : (regWritten src a s).mem = s.mem := rfl
@[simp] theorem regWritten_cmd (src : Src) (a : Nat) (s : State) : (regWritten src a s).cmd = s.cmd := rfl
@[simp] theorem regWritten_pwr (src : Src) (a : Nat) (s : State) : (regWritten src a s).pwr = s.pwr := rfl
@[simp] theorem regWritten_door (src : Src) (a : Nat) (s : State) : (regWritten src a s).door = s.door := rfl
@[simp] theorem regWritten_rx (src : Src) (a : Nat) (s : State) : (regWritten src a s).rx = s.rx := rfl
@[simp] theorem regWritten_jug (src : Src) (a : Nat) (s : State) : (regWritten src a s).jug = s.jug := rfl
@[simp] theorem regWritten_boot (src : Src) (a : Nat) (s : State) : (regWritten src a s).boot = s.boot := rfl
@[simp] theorem regWritten_phase (src : Src) (a : Nat) (s : State) : (regWritten src a s).phase = s.phase := rfl
@[simp] theorem regWritten_pb (src : Src) (a : Nat) (s : State) : (regWritten src a s).pb = s.pb := rfl
@[simp] theorem regWritten_err (src : Src) (a : Nat) (s : State) : (regWritten src a s).err = s.err := rfl
@[simp] theorem regWritten_ao (src : Src) (a : Nat) (s : State) : (regWritten src a s).ao = s.ao := rfl
@[simp] theorem regWritten_vd (src : Src) (a : Nat) (s : State) : (regWritten src a s).vd = s.vd := rfl
@[simp] theorem regWritten_booth (src : Src) (a : Nat) (s : State) (b : Booth) : (regWritten src a s).booth b = s.booth b := rfl

end Sys2Proof.Machine
end

