-- ==== Sys2Proof/Laws/Retunes.lean ====
section
/-! SUPPORT. What a retune may change, once (R238 to R243, R253): the calibration table, the synthesiser's settings and its
lock, pending events and in-band requests. -/

namespace Sys2Proof.Machine

/-- Nothing that a retune does not own differs. -/
structure RetuneOnly (s t : State) : Prop where
  bus : OnlyBus { s with nv := { s.nv with calTab := t.nv.calTab }, rx := t.rx } t
  svc : t.cmd.svc = s.cmd.svc
  booths : ∀ b, t.booth b = { s.booth b with pend := (t.booth b).pend }
  rx : t.rx = { s.rx with fcw := t.rx.fcw, clk1Ratio := t.rx.clk1Ratio, lock := t.rx.lock, settling := t.rx.settling }

theorem retuneOnly_refl (s : State) : RetuneOnly s s := ⟨rfl, rfl, fun _ => rfl, rfl⟩

theorem RetuneOnly.trans {s t u : State} (h : RetuneOnly s t) (k : RetuneOnly t u) : RetuneOnly s u := by
  refine ⟨?_, k.svc.trans h.svc, fun b => by rw [k.booths b, h.booths b], by rw [k.rx, h.rx]⟩
  have a := k.bus
  have b := h.bus
  unfold OnlyBus at *
  rw [a, b]

theorem raise_retuneOnly (e : Ev) (s : State) : RetuneOnly s (raise e s) := by
  have h := raise_only e s
  refine ⟨?_, by simp, fun b => raise_keeps e b s, by rw [h]⟩
  unfold OnlyBus at *
  rw [h]

theorem raiseIf_retuneOnly (c : Bool) (e : Ev) (s : State) : RetuneOnly s (raiseIf c e s) := by
  unfold raiseIf
  split
  · exact raise_retuneOnly e s
  · exact retuneOnly_refl s

theorem setSyn_retuneOnly (t : Target) (s : State) : RetuneOnly s (setSyn t s) := ⟨rfl, rfl, fun _ => rfl, rfl⟩

theorem setLock_retuneOnly (l : Bool) (s : State) : RetuneOnly s (setLock l s) := ⟨rfl, rfl, fun _ => rfl, rfl⟩

theorem putCal_retuneOnly (k : CalKey) (c : CalRun) (s : State) : RetuneOnly s (putCal k c s) :=
  ⟨rfl, rfl, fun _ => rfl, rfl⟩

theorem markCal_retuneOnly (k : CalKey) (ok : Bool) (s : State) : RetuneOnly s (markCal k ok s) := by
  unfold markCal
  split
  · exact retuneOnly_refl s
  · exact ⟨rfl, rfl, fun _ => rfl, rfl⟩

theorem readCal_retuneOnly (t : Target) (c : CalRun) (s : State) : RetuneOnly s (readCal t c s) :=
  (markCal_retuneOnly _ _ s).trans (markCal_retuneOnly _ _ _)

/-- A full calibration (R241, R243, R253). -/
theorem fullCal_retuneOnly (t : Target) (c : CalRun) (s : State) : RetuneOnly s (fullCal t c s).1 := by
  have h : RetuneOnly s (clk1Pause (setSyn t s)) := (setSyn_retuneOnly t s).trans (raiseIf_retuneOnly _ _ _)
  unfold fullCal
  dsimp only
  split
  · refine h.trans ?_
    split
    · exact (putCal_retuneOnly _ _ _).trans (setLock_retuneOnly _ _)
    · exact (putCal_retuneOnly _ _ _).trans ((putCal_retuneOnly _ _ _).trans (setLock_retuneOnly _ _))
  · exact h.trans ((setLock_retuneOnly _ _).trans (raise_retuneOnly _ _))

/-- A retune, stored or with a full calibration (R241, R248, R249). -/
theorem retune_retuneOnly (t : Target) (c : CalRun) (s : State) : RetuneOnly s (retune t c s).1 := by
  refine (readCal_retuneOnly t c s).trans ?_
  unfold retune
  dsimp only
  generalize readCal t c s = u
  split
  · split
    · exact (setSyn_retuneOnly t u).trans (setLock_retuneOnly _ _)
    · exact ((setSyn_retuneOnly t u).trans (setLock_retuneOnly _ _)).trans
        ((raise_retuneOnly _ _).trans (fullCal_retuneOnly t c _))
  · exact fullCal_retuneOnly t c u

/-- A stored retune whose words check and that locks sets the control word and LOCK and nothing else (R238, R241). -/
theorem retune_stored (t : Target) (c : CalRun) (s : State) (hu : usable s t.key = true) (h1 : c.stored = true)
    (h2 : c.entryOk = true) (h3 : c.bandOk = true) : retune t c s = (setLock true (setSyn t s), true) := by
  simp [retune, readCal, markCal, h1, h2, h3, hu]

end Sys2Proof.Machine
end

