-- ==== Sys2Proof/Laws/Routines.lean ====
section
/-! SUPPORT. What an instruction of a booth routine does, once: the instruction at the program counter of a run that goes
on acts on the run alone, stores at most one window word, faults, or ends the run. -/

namespace Sys2Proof.Machine

/-- No word is bad: nothing is. -/
@[simp] theorem isBad_none {s : State} (h : s.err.bad = []) (sp : EccSpace) (a : Nat) : isBad s sp a = false := by
  unfold isBad; rw [h]; rfl

/-- The instruction at the program counter of a run that goes on: its operation decides (R275). -/
theorem jugStep_at {i : Instr} {x : Run} {s : State} (h : At i x s) (op : State → Run → JugRes) :
    jugStep i [] op s = jugResult x (decide (i = .jugResume)) (op s x) s := by
  have g : fetchFault s x = none := by
    unfold fetchFault
    rw [if_neg (Nat.not_le.2 h.within), isBad_none h.sound]
    rfl
  have f : fetched s x = some i := h.word
  have a : alive s = true := by
    unfold alive
    rcases h.alive with e | e <;> rw [e] <;> rfl
  unfold jugStep
  rw [h.run]
  simp only [h.going, a, h.released, applyHits, g, f, Bool.not_true, Bool.or_self, Bool.false_eq_true, if_false, if_true]

/-- The run goes on with the next word. -/
theorem jugResult_next (x y : Run) (s : State) : jugResult x false (.go y none none) s = ranOn x y s := rfl

/-- An operation that changes the run alone. -/
theorem jugStep_run {i : Instr} {x y : Run} {s : State} {op : State → Run → JugRes} (h : At i x s) (k : i ≠ .jugResume)
    (e : op s x = .go y none none) : jugStep i [] op s = ranOn x y s := by
  rw [jugStep_at h, e, decide_eq_false k, jugResult_next]

/-- An instruction that would access a word at or beyond 2048. -/
theorem winFault_beyond (s : State) (b : Booth) {w : Nat} (h : 2048 ≤ w) : winFault s b w = some cWindow := if_pos h

/-- A window word that may be accessed. -/
theorem winFault_within {s : State} (b : Booth) {w : Nat} (h : w < 2048) (k : s.err.bad = []) : winFault s b w = none := by
  unfold winFault
  rw [if_neg (Nat.not_le.2 h), isBad_none k]
  rfl

/-! ### The end of a run -/

/-- A reply's own effect on the booths: one more reply for its booth. -/
theorem replyTo_booth (b : Booth) (t : Byte) (st : Status) (pl : Bytes) (s : State) (c : Booth) :
    (replyTo b t st pl s).booth c
      = if c = b then withReply { tag := t, status := st, payload := pl, refusal := false } (s.booth b) else s.booth c := by
  unfold replyTo pushReply
  rw [ibrArise_eq]
  show ((dropSvc b t s).onBooth b (withReply _)).booth c = _
  split
  · subst c; exact State.onBooth_booth_self _ _ _
  · exact State.onBooth_booth_ne _ _ _ (by assumption)

/-- A run that ends: no run, its reply, its routine's state; windows, code, memory and nonvolatile state as they were. -/
theorem endRun_ended {x : Run} {s : State} (h : s.jug.run = some x) (st : Status) (pl : Bytes) (rs : RtnState) :
    RunEnded x st pl rs s (endRun st pl rs s) ∧ (endRun st pl rs s).boot = s.boot
      ∧ ∀ b, ((endRun st pl rs s).booth b).mode = (s.booth b).mode := by
  let u := (s.onJug fun j => { j with run := none, paused := false }).onBooth x.booth fun y => { y with rtnState := rs }
  have e : endRun st pl rs s = radioSettle (replyTo x.booth x.tag st pl u) := by unfold endRun; rw [h]
  have g := radioSettle_gatesOnly (replyTo x.booth x.tag st pl u)
  have k : (replyTo x.booth x.tag st pl u).jug = u.jug ∧ (replyTo x.booth x.tag st pl u).mem = u.mem
      ∧ (replyTo x.booth x.tag st pl u).nv = u.nv ∧ (replyTo x.booth x.tag st pl u).boot = u.boot := by
    unfold replyTo pushReply
    rw [ibrArise_eq]
    exact ⟨rfl, rfl, rfl, rfl⟩
  have own : u.booth x.booth = { s.booth x.booth with rtnState := rs } := State.onBooth_booth_self _ _ _
  rw [e]
  refine ⟨⟨?_, ?_, ?_, ?_, ?_, ?_, ?_, ?_⟩, ?_, ?_⟩
  · rw [g.jug, k.1]; rfl
  · rw [g.booths, replyTo_booth, if_pos rfl, own]; rfl
  · unfold ReplyAdded; rw [g.booths, replyTo_booth, if_pos rfl, own]; rfl
  · rw [g.jug, k.1]; rfl
  · rw [g.jug, k.1]; rfl
  · rw [g.jug, k.1]; rfl
  · rw [g.mem, k.2.1]; rfl
  · rw [g.nv, k.2.2.1]; rfl
  · rw [g.boot, k.2.2.2]; rfl
  · intro b
    rw [g.booths, replyTo_booth]
    dsimp only
    by_cases hb : b = x.booth
    · subst hb; rw [if_pos rfl, own]; rfl
    · rw [if_neg hb, State.onBooth_booth_ne _ _ _ hb]; rfl

end Sys2Proof.Machine
end

