-- ==== Sys2Proof/Tests/Slice0.lean ====
section
/-! SUPPORT. Tests of the model on small states, and for every statement with hypotheses a concrete state and operands that
meet them. -/

namespace Sys2Proof.Tests
open Sys2Proof.Machine

/-! ### Small states -/

/-- Running, nothing else changed since reset. -/
def up : State := { State.reset with phase := .running, jug := { Jug.start with released := true } }

/-- Booth 1 enabled with depth 2 as well. -/
def up1 : State := up.onBooth 1 fun x => { x with mode := .enabled, depth := 2 }

def s0 : Src := { booth := 0, path := .host }
def s1 : Src := { booth := 1, path := .host }

/-- A packet of the owner, and one of booth 1. -/
def own (payload : Bytes) : Packet := { src := s0, tag := 0x11, payload := payload }
def one (payload : Bytes) : Packet := { src := s1, tag := 0x22, payload := payload }

/-- A reply that waits, and an ST_BUSY that waits. -/
def waits (tag : Byte) (refusal : Bool) : Reply := { tag := tag, status := .ok, payload := [], refusal := refusal }

/-- `Accepts` and `Serves` as programs. -/
def acceptsB (p : Packet) (s : State) : Bool :=
  busAnswers s p.src true && !s.hb.asleep && !refusalWaiting s p.src.booth && !tagOut s p.src.booth p.tag
    && decide (depthCount s p.src.booth < (s.booth p.src.booth).depth) && !tableFull s p.src.booth
    && busFits p.src (6 + p.payload.length)

def servesB (r : OpRow) (n : Needs) (p : Packet) (s : State) : Bool :=
  acceptsB p s && !s.boot.loader && (!r.ownerOnly || p.src.booth == 0) && (s.phase != .holdSafe || r.hold)
    && r.lenOk p.payload.length && (!n.juggler || s.jug.released) && n.gates &&& heldOff s == 0
    && (!n.power || !s.pwr.battEnd)

theorem accepts_of {p : Packet} {s : State} (h : acceptsB p s = true) : Accepts p s := by
  simp only [acceptsB, Bool.and_eq_true, Bool.not_eq_true', decide_eq_true_eq] at h
  obtain ⟨⟨⟨⟨⟨⟨a, b⟩, c⟩, d⟩, e⟩, f⟩, g⟩ := h
  exact { answers := a, awake := b, fits := g, slot := c, tag := d, depth := e, room := f }

theorem serves_of {r : OpRow} {n : Needs} {p : Packet} {s : State} (h : servesB r n p s = true) : Serves r n p s := by
  simp only [servesB, Bool.and_eq_true] at h
  obtain ⟨⟨⟨⟨⟨⟨⟨a, b⟩, c⟩, d⟩, e⟩, f⟩, g⟩, i⟩ := h
  refine { toAccepts := accepts_of a, loader := by simpa using b, owner := ?_, hold := ?_, length := e, juggler := ?_
           gates := by simpa using g, power := ?_ }
  · intro k; simpa [k] using c
  · intro k; simpa [k] using d
  · intro k; simpa [k] using f
  · intro k; simpa [k] using i

/-- Some packet of a row is served in some state that meets a condition. -/
def Met (r : OpRow) (n : Needs) (c : Packet → State → Prop) : Prop := ∃ p s, Serves r n p s ∧ c p s

theorem met {r : OpRow} {n : Needs} {c : Packet → State → Prop} (p : Packet) (s : State)
    (h : servesB r n p s = true ∧ c p s) : Met r n c := ⟨p, s, serves_of h.1, h.2⟩

/-- A register write of the owner reaches the block in a state that meets a condition. -/
def Wrote (a : Nat) (c : State → Prop) : Prop := ∃ s, Writes s0 a s ∧ c s

theorem wrote {a : Nat} {c : State → Prop} (s : State)
    (h : (busAnswers s s0 true = true ∧ s.hb.asleep = false ∧ s.boot.loader = false) ∧ c s) : Wrote a c :=
  ⟨s, { answers := h.1.1, awake := h.1.2.1, loader := h.1.2.2, view := Or.inl rfl }, h.2⟩

/-! ### Witnesses: the host bus, booths and the Keep -/

theorem witness_StepRunsFrontCommand : ({ up with pending := [.refLoss] } : State).pending = .refLoss :: [] := rfl

theorem witness_EmptyQueuePassesOneRtcPeriod : up.pending = [] ∧ ¬ (up.phase = .unpowered ∧ up.ao.afterDown = false) := by decide

theorem witness_EveryStepKeepsSound : Sound State.reset ∧ step State.reset = .next (idleTick State.reset) := by
  refine ⟨⟨rfl, rfl, rfl, by decide, by decide, ?_⟩, rfl⟩
  intro i hi
  exact absurd (by revert i; decide) hi

theorem witness_UnansweredAndMalformedPacketsAreNotRun :
    (packetOf (.getInfo (one [])) = some (0x01, one []) ∧ busAnswers up (one []).src true = false)
    ∧ (busAnswers up s0 true = true ∧ up.hb.asleep = false ∧ up.boot.loader = false ∧ (up.booth 0).mode = .enabled
        ∧ refusalWaiting up 0 = false)
    ∧ ∃ s : State, Reaches (own []) s ∧ (s.booth 0).mode = .enabled ∧ refusalWaiting s 0 = false
        ∧ tagOut s 0 (own []).tag = true :=
  ⟨by decide, by decide, up.onBooth 0 fun x => { x with replies := [waits 0x11 false] }, ⟨by decide, by decide, by decide⟩, by decide⟩

theorem witness_BusySlotNacksEveryPacket :
    (∃ s : State, Reaches (own []) s ∧ refusalWaiting s 0 = true) ∧ Met op_nop Needs.none fun _ _ => True :=
  ⟨⟨up.onBooth 0 fun x => { x with replies := [waits 0x31 true] }, ⟨by decide, by decide, by decide⟩, by decide⟩, met (own []) up (by decide)⟩

theorem witness_RefusedPacketGetsBusyWithItsCause :
    (∃ s : State, Reaches (one []) s ∧ (s.booth 1).mode = .enabled ∧ refusalWaiting s 1 = false ∧ tagOut s 1 0x22 = false
      ∧ (s.booth 1).depth ≤ depthCount s 1)
    ∧ ∃ s : State, Reaches (own []) s ∧ refusalWaiting s 0 = false ∧ tagOut s 0 0x11 = false ∧ depthCount s 0 < (s.booth 0).depth
      ∧ 48 ≤ s.cmd.svc.length :=
  ⟨⟨up1.onBooth 1 fun x => { x with replies := [waits 1 false, waits 2 false] }, ⟨by decide, by decide, by decide⟩, by decide⟩
  , ⟨up.onCmd fun c => { c with svc := List.replicate 48 { booth := 1, tag := 0, opcode := 0 } }, ⟨by decide, by decide, by decide⟩, by decide⟩⟩

/-- A run of a booth. -/
def aRun (b : Booth) : Run :=
  { booth := b, tag := 0x77, r := Vector.replicate 8 0, a := Vector.replicate 4 0, v := Vector.replicate 16 0, acc0 := 0
    acc1 := 0, z := false, n := false, vf := false, s := false, pc := 0, vector := none, handler := false
    flt := { cause := 0, nested := false, lane := 0, pc := 0, addr := 0 }, resuming := false, gatherFrom := none }

theorem witness_SecondRoutineIsRefusedWithoutEvent : ∃ s : State, Accepts (one []) s ∧ routineBusy s 1 = true :=
  ⟨up1.onJug fun j => { j with run := some (aRun 1) }, accepts_of (by decide), by decide⟩

theorem witness_FirstFailingCheckDecidesTheReply :
    (∃ s, Accepts (one []) s ∧ packetRow (.devReset (one [])) = some (op_devReset, fun _ => Needs.none, one [])
      ∧ op_devReset.ownerOnly = true)
    ∧ (∃ s, Accepts (own []) s ∧ s.phase = .holdSafe ∧ op_credSubmit.hold = false)
    ∧ (∃ s, Accepts (own [0]) s ∧ op_getInfo.lenOk 1 = false)
    ∧ (∃ s, Accepts (own [0, 0, 0, 0]) s ∧ s.jug.released = false ∧ op_rtnRead.lenOk 4 = true)
    ∧ (∃ s, Accepts (own [0, 0, 0, 0]) s ∧ s.jug.released = true ∧ (needsJuggler s).gates &&& s.pwr.gateReq ≠ 0) :=
  ⟨⟨up1, accepts_of (by decide), rfl, rfl⟩, ⟨{ up with phase := .holdSafe, boot := { up.boot with ready := true } }, accepts_of (by decide), by decide⟩
  , ⟨up, accepts_of (by decide), by decide⟩, ⟨up.onJug fun j => { j with released := false }, accepts_of (by decide), by decide⟩
  , ⟨up.onPwr fun p => { p with gateReq := 1 }, accepts_of (by decide), by decide⟩⟩

theorem witness_IdentityCommandsAnswer :
    Met op_nop Needs.none (fun _ _ => True) ∧ (∃ p s, Accepts p s ∧ s.boot.loader = false) ∧ Met op_getInfo Needs.none (fun _ _ => True)
    ∧ Met op_boothStatus Needs.none (fun _ _ => True) ∧ Met op_devReset Needs.none fun _ _ => True :=
  ⟨met (one []) up1 (by decide), ⟨own [7], up, accepts_of (by decide), by decide⟩, met (one []) up1 (by decide)
  , met (one []) up1 (by decide), met (own []) up (by decide)⟩

theorem witness_ResetCausesEnterTheResetPhase :
    ({ up with boot := { up.boot with devReset := some (0, 1) } } : State).boot.devReset.isSome = true
    ∧ alive up = true
    ∧ (∀ now : Nat, now = 120 * 32768 ∨ now + 1 = 120 * 32768 → ∃ s : State, alive s = true ∧ s.boot.trial = true
        ∧ s.boot.trialStart = some 0 ∧ s.boot.trialS = 0 ∧ s.ao.rtc = now)
    ∧ (∃ s : State, alive s = true ∧ updateReady s = true)
    ∧ (up.phase ≠ .unpowered ∧ up.pwr.vddioOk = true ∧ (2000 : Nat) ≤ 2000) ∧ (199 : Nat) < 200 :=
  ⟨rfl, by decide
  , fun now _ => ⟨{ up with boot := { up.boot with trial := true, trialStart := some 0 }, ao := { up.ao with rtc := now } }, rfl, rfl, rfl, rfl, rfl⟩
  , ⟨up.onNv fun n => { n with br := { n.br with stA := .trial, due := true } }, by decide⟩, by decide, by decide⟩

theorem witness_BoothEnableSetsModeAndDepth :
    (∃ s, Serves op_boothEnable Needs.none (own [7, 8]) s ∧ (s.booth 7).mode = .disabled)
    ∧ (∃ s, Serves op_boothEnable Needs.none (own [1, 1]) s ∧ (s.booth 1).mode = .enabled ∧ depthCount s 1 ≤ 1)
    ∧ (∃ s, Serves op_boothEnable Needs.none (own [1, 1]) s ∧ (s.booth 1).mode = .enabled ∧ 1 < depthCount s 1
        ∧ Reaches (one []) s ∧ refusalWaiting s 1 = false ∧ tagOut s 1 0x22 = false ∧ (s.booth 1).depth ≤ depthCount s 1) :=
  ⟨⟨up, serves_of (by decide), by decide⟩, ⟨up1, serves_of (by decide), by decide⟩
  , ⟨up1.onBooth 1 fun x => { x with replies := [waits 1 false, waits 2 false] }, serves_of (by decide), by decide, by decide
    , ⟨by decide, by decide, by decide⟩, by decide⟩⟩

theorem witness_BoothDisableDrainsAndEnds :
    (∃ s, Serves op_boothDisable Needs.none (own [1]) s ∧ (s.booth 1).mode = .enabled
        ∧ ((s.cmd.svc.filter fun x => x.booth = 1).Pairwise fun x y => x.tag ≠ y.tag)
        ∧ (s.keep.hash.cur ≠ none ∨ (s.keep.hash.queue = [] ∧ s.car.queue = [])) ∧ isWaiting s 1 5 = true ∧ inFlight s 1 = 2)
    ∧ (∃ s, Serves op_boothDisable Needs.none (own [7]) s ∧ (s.booth 7).mode ≠ .enabled)
    ∧ (∃ s, Serves op_boothDisable Needs.none (own [0]) s) ∧ (∃ s, Serves op_boothDisable Needs.none (own [8]) s)
    ∧ (∃ s, Serves op_boothEnable Needs.none (own [1, 8]) s ∧ (s.booth 1).mode = .draining)
    ∧ ∃ s : State, (s.booth 1).mode = .draining ∧ inFlight s 1 = 0 ∧ (s.booth 1).replies = [] ∧ s.mem.wf = true
        ∧ s.boot.loader = false ∧ (s.booth 0).mode = .enabled ∧ s.fm.hold = none :=
  ⟨⟨{ up1 with cmd := { up1.cmd with svc := [{ booth := 1, tag := 5, opcode := 0x2D }, { booth := 1, tag := 6, opcode := 0x2D }] }
               keep := { up1.keep with aes := { cur := some (.cmd { booth := 1, tag := 6, op := .random 4 } [] none)
                                                queue := [{ booth := 1, tag := 5, op := .random 4 }] } } }
    , serves_of (by decide), by decide⟩
  , ⟨up1, serves_of (by decide), by decide⟩, ⟨up, serves_of (by decide)⟩
  , ⟨up, serves_of (by decide)⟩, ⟨up1.onBooth 1 fun x => { x with mode := .draining }, serves_of (by decide), by decide⟩
  , ⟨up1.onBooth 1 fun x => { x with mode := .draining }, by decide⟩⟩

/-- An AES operation of booth 0 under a tag. -/
def aJob (tag : Byte) : Job := { booth := 0, tag := tag, op := .random 4 }

theorem witness_CancelFindsItsTarget :
    (∃ s, Serves op_cancel Needs.none (own [0x11]) s)
    ∧ (∃ s, Serves op_cancel Needs.none (own [5]) s ∧ (s.booth 0).replies.any (fun r => !r.refusal && r.tag == 5) = true)
    ∧ (∃ s, Serves op_cancel Needs.none (own [5]) s ∧ tagOut s 0 5 = false)
    ∧ (∃ s, Serves op_cancel Needs.none (own [5]) s ∧ (s.booth 0).replies.any (fun r => !r.refusal && r.tag == 5) = false
        ∧ tagOut s 0 5 = true ∧ isWaiting s 0 5 = false ∧ stoppable s 0 5 = none)
    ∧ ∃ s, Serves op_cancel Needs.none (own [5]) s ∧ (s.booth 0).replies.any (fun r => !r.refusal && r.tag == 5) = false
        ∧ tagOut s 0 5 = true ∧ s.keep.aes.queue.any (fun j => j.booth == 0 && j.tag == 5) = true
        ∧ s.vd.intake.any (Cred.isOf 0 5) = false :=
  ⟨⟨up, serves_of (by decide)⟩, ⟨up.onBooth 0 fun x => { x with replies := [waits 5 false] }, serves_of (by decide), by decide⟩
  , ⟨up, serves_of (by decide), by decide⟩
  , ⟨{ up with cmd := { up.cmd with svc := [{ booth := 0, tag := 5, opcode := 0x2D }] }
               keep := { up.keep with aes := { cur := some (.cmd (aJob 5) [] none), queue := [] } } }, serves_of (by decide), by decide⟩
  , ⟨{ up with cmd := { up.cmd with svc := [{ booth := 0, tag := 5, opcode := 0x2D }] }
               keep := { up.keep with aes := { cur := some (.cmd (aJob 4) [] none), queue := [aJob 5] } } }
    , serves_of (by decide), by decide⟩⟩

/-- A key slot of the owner's choice holds a key. -/
def withKey (k : Fin 64) (typ : KeyType) (key : Bytes) (s : State) : State :=
  s.onNv fun n => { n with keys := n.keys.set k { typ := typ, key := key, gen := 3, epoch := 0, fromCar := false } }

/-- The sample bytes 00, 01, 02, … -/
def ramp (n : Nat) : Bytes := (List.range n).map (BitVec.ofNat 8)

/-- RETIRED: `SP_LIFECYCLE` three steps on. -/
def gone : State := up.onNv fun n => { n with spore := [{ cell := 0, value := [3], left := 0 }] }

theorem witness_KeySlotCommandsReadAndErase :
    (∃ s, Serves op_keyInfo Needs.none (own [64]) s) ∧ (∃ s, Serves op_keyInfo Needs.none (one [63]) s ∧ mayUse s 1 63 = false)
    ∧ (∃ s, Serves op_keyInfo Needs.none (own [63]) s ∧ mayUse s 0 63 = true)
    ∧ (∃ s, Serves op_keyErase Needs.none (own [5]) s ∧ lifeCycle s = .retired)
    ∧ (∃ s, Serves op_keyErase Needs.none (own [4]) s ∧ lifeCycle s ≠ .retired ∧ mayWrite s 0 4 = false)
    ∧ (∃ s, Serves op_keyErase Needs.none (own [5]) s ∧ lifeCycle s ≠ .retired ∧ mayWrite s 0 5 = true ∧ s.keep.aes.cur = none
        ∧ s.keep.hash.cur = none)
    ∧ (∃ s, Serves op_auditPub Needs.none (own []) s ∧ (keySlot s 4).typ = .empty)
    ∧ ∃ s, Serves op_auditPub Needs.none (own []) s ∧ (keySlot s 4).typ ≠ .empty :=
  ⟨⟨up, serves_of (by decide)⟩, ⟨up1, serves_of (by decide), by decide⟩, ⟨up, serves_of (by decide), by decide⟩
  , ⟨gone, serves_of (by decide), by decide⟩, ⟨up, serves_of (by decide), by decide⟩, ⟨up, serves_of (by decide), by decide⟩
  , ⟨up, serves_of (by decide), by decide⟩, ⟨withKey 4 .audit25519 (ramp 32) up, serves_of (by decide), by decide⟩⟩

theorem witness_EngineCommandsStartTheirOperation :
    (Serves op_aesCrypt Needs.none (own ([63, 2, 0, 0] ++ ramp 32)) up
      ∧ Serves op_cmacGen Needs.none (own [0, 8, 0, 0]) up ∧ Serves op_cmacGen Needs.none (own [0, 16, 0, 0]) up
      ∧ (Serves op_keyDerive Needs.none (own [0, 63, 3, 0]) up ∧ lifeCycle up ≠ .retired ∧ loadableType 3 = some .wrap256
          ∧ mayWrite up 0 63 = true)
      ∧ (Serves op_keyLoad Needs.none (own ([1, 3, 0, 0] ++ ramp 40)) up ∧ mayLoad up 0 1 = true ∧ mayWrap up 0 1 0 = true
          ∧ ((own ([1, 3, 0, 0] ++ ramp 40)).payload.drop 4).length = KeyType.bytes .wrap256 + 8)
      ∧ (Serves op_random Needs.none (own [0, 4]) up ∧ up.keep.rngFailing = false ∧ leField [0, 4] 0 2 = 1024)
      ∧ Serves op_sha256 Needs.none (own []) up ∧ Serves op_edVerify Needs.none (own (ramp 96)) up
      ∧ Serves op_edSign Needs.none (own [63, 0, 0, 0]) up ∧ mayUse up 0 63 = true)
    ∧ EngineFree .aes up ∧ EngineFree .hash up
    ∧ ∃ s : State, Serves op_sha256 Needs.none (own []) s ∧ (engineOf s .aes).cur ≠ none ∧ (engineOf s .hash).cur ≠ none :=
  ⟨⟨serves_of (by decide), serves_of (by decide), serves_of (by decide), ⟨serves_of (by decide), by decide⟩
    , ⟨serves_of (by decide), by decide⟩, ⟨serves_of (by decide), by decide⟩, serves_of (by decide), serves_of (by decide)
    , serves_of (by decide), by decide⟩
  , rfl, ⟨rfl, rfl, rfl⟩
  , ⟨up.onKeep fun k => { k with aes := { cur := some (.cmd (aJob 5) [] none), queue := [] }, hash := { cur := some .car, queue := [] } }
    , serves_of (by decide), by decide⟩⟩

/-- The engine runs an operation and nothing waits. -/
def runs (j : Job) (snap : List (Nat × Half)) (early : Option Status) (s : State) : State :=
  s.onKeep fun k => { k with aes := { cur := some (.cmd j snap early), queue := [] } }

/-- FIPS 197, appendix C.1. -/
theorem test_aes128_fips197 : aesEnc (ramp 16)
    [0x00, 0x11, 0x22, 0x33, 0x44, 0x55, 0x66, 0x77, 0x88, 0x99, 0xAA, 0xBB, 0xCC, 0xDD, 0xEE, 0xFF]
    = [0x69, 0xC4, 0xE0, 0xD8, 0x6A, 0x7B, 0x04, 0x30, 0xD8, 0xCD, 0xB7, 0x80, 0x70, 0xB4, 0xC5, 0x5A] := by
  decide +kernel
/-- FIPS 180-4, the message "abc". -/
theorem test_sha256_abc : sha256 [0x61, 0x62, 0x63]
    = [0xBA, 0x78, 0x16, 0xBF, 0x8F, 0x01, 0xCF, 0xEA, 0x41, 0x41, 0x40, 0xDE, 0x5D, 0xAE, 0x22, 0x23, 0xB0, 0x03, 0x61, 0xA3, 0x96
    , 0x17, 0x7A, 0x9C, 0xB4, 0x10, 0xFF, 0x61, 0xF2, 0x00, 0x15, 0xAD] := by decide +kernel


theorem witness_EngineOperationsEndWithTheirResult :
    (∃ s : State, engineOf s .aes = { cur := some (.cmd (aJob 5) [(6, 0)] (some .keyEmpty)), queue := [] } ∧ s.keep.cpWanted = false
        ∧ s.car.queue = [])
    ∧ (∃ s : State, engineOf s .aes = { cur := some (.cmd (aJob 5) [(6, 2)] none), queue := [] } ∧ (keySlot s 6).gen ≠ 2
        ∧ s.pwr.limit = true ∧ s.keep.cpWanted = false ∧ s.car.queue = [])
    ∧ (∃ s : State, engineOf s .aes = { cur := some (.cmd { aJob 5 with op := .load 63 .aes128 0 (List.replicate 8 0xA6) } [] none), queue := [] }
        ∧ (JobOp.load 63 .aes128 0 (List.replicate 8 0xA6)).plain = true
        ∧ keyUnwrap (keySlot s 0).key (List.replicate 8 0xA6) = some [] ∧ keyUnwrap (keySlot s 0).key (zeros 8) = none
        ∧ s.keep.cpWanted = false ∧ s.car.queue = [] ∧ s.keep.rngFailing = false)
    ∧ ∃ s : State, engineOf s .aes = { cur := some (.cmd { aJob 5 with op := .derive_ 6 63 .aes128 [] } [(6, 3)] none), queue := [] }
        ∧ (keySlot s 6).gen = 3 ∧ s.keep.cpWanted = false ∧ s.car.queue = [] :=
  ⟨⟨runs (aJob 5) [(6, 0)] (some .keyEmpty) up, by decide⟩
  , ⟨runs (aJob 5) [(6, 2)] none (withKey 6 .aes128 (ramp 16) { up with pwr := { up.pwr with limit := true } }), by decide⟩
  , ⟨runs { aJob 5 with op := .load 63 .aes128 0 (List.replicate 8 0xA6) } [] none up, by decide⟩
  , ⟨runs { aJob 5 with op := .derive_ 6 63 .aes128 [] } [(6, 3)] none (withKey 6 .aes128 (ramp 16) up), by decide⟩⟩

theorem logReady {s : State} (h : s.vd.wait = [] ∧ s.nv.log.sealed_ = false ∧ s.nv.log.next + 1 < sealSeq) : LogReady s :=
  ⟨h.1, h.2.1, h.2.2⟩

/-- The version-floor cell holds a value; its budget is spent in the second state. -/
def withCell (cell : Nat) (value : Bytes) (left : Nat) (s : State) : State :=
  s.onNv fun n => { n with spore := [{ cell := cell, value := value, left := left }] }

theorem witness_SporeCellsAreReadAndSpent :
    (∃ s, Serves op_sporeRead Needs.none (own [128]) s) ∧ (∃ s, Serves op_sporeRead Needs.none (one [32]) s)
    ∧ (∃ s, Serves op_sporeRead Needs.none (one [95]) s) ∧ (∃ s, Serves op_sporeRead Needs.none (one [96]) s)
    ∧ (∀ k ∈ [(1, up), (1, withCell 1 [1, 2, 3, 4] 0 up), (10, up)], ∃ p s len budget states, s = k.2
        ∧ Serves op_sporeWrite Needs.none p s ∧ (byteAt p.payload 0).toNat = k.1 ∧ sub p.payload 1 3 = [0, 0, 0]
        ∧ cellKind k.1 = .budgeted len budget ∧ cmdStates k.1 = some states ∧ states.contains (lifeCycle s) = true
        ∧ (p.payload.drop 4).length = len ∧ valueOk k.1 (p.payload.drop 4) = true ∧ s.boot.loader = false)
    ∧ (∃ s, Serves op_sporeWrite Needs.none (own [1, 0, 0, 0, 0, 0, 0, 0]) s ∧ zeros 4 = cellValue s 1)
    ∧ (∃ s, Serves op_sporeWrite Needs.none (own [1, 0, 0, 0, 0, 0, 0, 0]) s ∧ zeros 4 ≠ cellValue s 1 ∧ valueOk 1 (zeros 4) = false)
    ∧ (∃ s, Serves op_sporeWrite Needs.none (own [1, 0, 0, 0, 1, 2, 3, 4]) s ∧ [1, 2, 3, 4] = cellValue s 1)
    ∧ (∃ s, Serves op_sporeWrite Needs.none (own [1, 0, 0, 0, 5, 6, 7, 8]) s ∧ [5, 6, 7, 8] ≠ cellValue s 1 ∧ cellLeft s 1 = 0)
    ∧ (∃ s, Serves op_sporeWrite Needs.none (own [1, 0, 0, 0, 5, 6, 7, 8]) s ∧ [5, 6, 7, 8] ≠ cellValue s 1 ∧ 0 < cellLeft s 1
        ∧ LogReady s)
    ∧ (∃ s, Serves op_sporeStep Needs.none (own [15]) s) ∧ (∃ s, Serves op_sporeStep Needs.none (own [32]) s)
    ∧ (∃ s, Serves op_sporeStep Needs.none (own [31]) s ∧ lifeCycle s = .retired)
    ∧ ∃ s, Serves op_sporeStep Needs.none (own [16]) s ∧ lifeCycle s ≠ .retired ∧ 0 < cellLeft s 16 ∧ LogReady s ∧ cellNat s 16 < 255 :=
  ⟨⟨up, serves_of (by decide)⟩, ⟨up1, serves_of (by decide)⟩, ⟨up1, serves_of (by decide)⟩, ⟨up1, serves_of (by decide)⟩
  , by
      intro k hk
      simp only [List.mem_cons, List.not_mem_nil, or_false] at hk
      rcases hk with rfl | rfl | rfl
      · exact ⟨own [1, 0, 0, 0, 5, 6, 7, 8], _, 4, 4, _, rfl, serves_of (by decide), by decide, by decide, rfl, rfl, by decide⟩
      · exact ⟨own [1, 0, 0, 0, 5, 6, 7, 8], _, 4, 4, _, rfl, serves_of (by decide), by decide, by decide, rfl, rfl, by decide⟩
      · exact ⟨own [10, 0, 0, 0, 1], _, 1, 8, _, rfl, serves_of (by decide), by decide, by decide, rfl, rfl, by decide⟩
  , ⟨up, serves_of (by decide), by decide⟩, ⟨withCell 1 [1, 2, 3, 4] 0 up, serves_of (by decide), by decide⟩
  , ⟨withCell 1 [1, 2, 3, 4] 0 up, serves_of (by decide), by decide⟩
  , ⟨withCell 1 [1, 2, 3, 4] 0 up, serves_of (by decide), by decide⟩
  , ⟨up, serves_of (by decide), by decide, by decide, logReady (by decide)⟩
  , ⟨up, serves_of (by decide)⟩, ⟨up, serves_of (by decide)⟩, ⟨gone, serves_of (by decide), by decide⟩
  , ⟨up, serves_of (by decide), by decide, by decide, logReady (by decide), by decide⟩⟩

/-- A health test is failing. -/
def noisy : State := up.onKeep fun k => { k with rngFailing := true }

/-- Samples that pass every health test, and samples with 40 equal ones. -/
def fairSamples : List Bool := (List.range 4096).map fun i => i % 2 == 0
def stuckSamples : List Bool := List.replicate 40 true

theorem witness_HealthTestsStopAndRestartTheRandomSource :
    (alive up = true ∧ up.boot.loader = false ∧ up.keep.rngFailing = false ∧ up.err.aValid = false
        ∧ failedTest stuckSamples = some 2)
    ∧ failedTest [] = none
    ∧ ((List.replicate 681 true ++ List.replicate 342 false).length ≤ 1023 ∧ 680 < (List.replicate 681 true ++ List.replicate 342 false).count true)
    ∧ (4096 ≤ fairSamples.length ∧ failedTest (fairSamples.take 4096) = none) ∧ stuckSamples.length < 4096
    ∧ (Serves op_random Needs.none (own [1, 0]) noisy ∧ noisy.keep.rngFailing = true ∧ leField [1, 0] 0 2 = 1)
    ∧ alive noisy = true ∧ noisy.boot.loader = false :=
  ⟨by decide +kernel, by decide, by decide +kernel, by decide +kernel, by decide +kernel, ⟨serves_of (by decide), by decide⟩, by decide⟩

/-! ### Witnesses: registers -/

theorem writes {a : Nat} {s : State} (h : busAnswers s s0 true = true ∧ s.hb.asleep = false ∧ s.boot.loader = false) :
    Writes s0 a s :=
  { answers := h.1, awake := h.2.1, loader := h.2.2, view := Or.inl rfl }

/-- Booth 1 writes in its own window. -/
theorem writes1 {a : Nat} {s : State} (h : (busAnswers s s1 true = true ∧ s.hb.asleep = false ∧ s.boot.loader = false) ∧ a < 0x100) :
    Writes s1 a s :=
  { answers := h.1.1, awake := h.1.2.1, loader := h.1.2.2, view := Or.inr h.2 }

theorem witness_PowerAndBusRegistersTakeTheirFields :
    (∀ a, Writes s0 a up) ∧ (bits 0x2301 0 2 < 2 ∧ bits 0x2301 8 6 < 36)
    ∧ (up.pwr.battCfg.getLsbD 31 = false ∧ bits 0x5556 0 8 = 86 ∧ bits 0x5556 8 8 = 85 ∧ bits 0 0 8 = 0)
    ∧ (up.hb.addrCfg.getLsbD 31 = false ∧ bits 0x700 0 2 ≠ 3 ∧ Nat.land (bits 0x700 16 3) (bits 0x700 8 3) = 0
        ∧ cfgAnswersReserved up 0x700 = false)
    ∧ ({ up with hb := { up.hb with addrPend := some 0x700 } } : State).hb.addrPend = some 0x700 ∧ up.hb.addrPend = none
    ∧ bits 0x010001 16 8 ≠ 0 ∧ (bits 0x010002 0 2 ≠ 3 ∧ bits 0x010002 16 8 ≠ 0)
    ∧ (bits 0x8008 0 7 ≠ 0x3C ∧ 8 ≤ bits 0x8008 0 7 ∧ bits 0x8077 0 7 < 0x78) ∧ (1 : Word).getLsbD 0 = true :=
  ⟨fun _ => writes (by decide), by decide, by decide, by decide, rfl, rfl, by decide, by decide, by decide, by decide⟩

theorem witness_BoothControlRegistersTakeTheirFields :
    (∀ a, Writes s0 a up1) ∧ Writes s1 0xFC up1
    ∧ (∀ o : Booth, o ≠ 0 → o ≠ 1 → (up1.booth o).slots &&& ((0xFFFFFFFF : Word) &&& 0xFFFFFF00).zeroExtend 64 = 0)
    ∧ ∀ o : Booth, o ≠ 0 → o ≠ 7 → (up1.booth o).slots &&& (0xFFFFFFFF : Word).zeroExtend 64 <<< 32 = 0 :=
  ⟨fun _ => writes (by decide), writes1 (by decide), by decide, by decide⟩

theorem witness_DoorAndChainRegistersTakeTheirFields :
    (∀ a, Writes s0 a up)
    ∧ (5 ≤ bits 0x0A0105 0 8 ∧ bits 0x0A0105 0 8 ≤ 100 ∧ bits 0x0A0105 8 8 ≠ 0 ∧ 10 ≤ bits 0x0A0105 16 8)
    ∧ bits 1200 0 12 ≤ 1200
    ∧ (up.door.inCfg.getLsbD 31 = false ∧ (0 : Word).getLsbD 2 = up.ao.tamperLow ∧ (0 : Word).getLsbD 3 = up.door.inCfg.getLsbD 3)
    ∧ (Frond.start.skip = false ∧ firSum [3, 4] (((0, 0) :: Frond.start.line).map (·.1)) / 2 ^ (Config.tapBits + 1) = 0
        ∧ ({ Frond.start with skip := true } : Frond).skip = true)
    ∧ ((4 : Word).getLsbD 2 ≠ up.ao.tamperLow ∧ up.door.tamperIn = false ∧ alive up = true)
    ∧ (bits 0x010901 0 2 < 2 ∧ bits 0x010901 8 8 ≠ 0 ∧ bits 0x010901 16 8 ≠ 0 ∧ bits 0x010901 8 8 < 10 * bits 0x010901 16 8
        ∧ up.phase = .running)
    ∧ bits 1 0 3 ≠ 0 ∧ bits 1 0 8 ≠ 0
    ∧ ∃ s : State, (∀ a, Writes s0 a s) ∧ s.door.outCfg.getLsbD 31 = false ∧ s.door.latch ≠ .idle :=
  ⟨fun _ => writes (by decide), by decide, by decide, by decide, ⟨rfl, Int.zero_ediv _, rfl⟩, by decide, by decide, by decide, by decide
  , ⟨up.onDoor fun d => { d with latch := .dwell }, fun _ => writes (by decide), by decide⟩⟩

theorem witness_ReservedAndLockedWritesAreDiscarded :
    (∀ a, Writes s0 a up) ∧ (2 ≤ bits 2 0 2 ∧ 36 ≤ bits 0x2400 8 6)
    ∧ (up.pwr.battCfg.getLsbD 31 = false ∧ bits 0x54 0 8 = 84 ∧ bits 0x5555 0 8 ≤ bits 0x5555 8 8)
    ∧ (5 ≤ bits 5 0 3 ∧ bits 5 0 3 ≠ bits up.pwr.tcxoCfg 0 3)
    ∧ (up.hb.addrCfg.getLsbD 31 = false ∧ bits 3 0 2 = 3 ∧ Nat.land (bits 0x010100 16 3) (bits 0x010100 8 3) ≠ 0
        ∧ ∃ v : Word, cfgAnswersReserved { up with hb := { up.hb with strap := some (0, 0x7C) } } v = true)
    ∧ (bits 0 16 8 = 0 ∧ bits 0x010003 0 2 = 3) ∧ ((0x803C : Word).getLsbD 15 = true ∧ bits 0x803C 0 7 = 0x3C)
    ∧ (∃ s : State, (∀ a, Writes s0 a s) ∧ (s.booth 1).slots &&& ((0x100 : Word) &&& 0xFFFFFF00).zeroExtend 64 ≠ 0)
    ∧ (6 ≤ bits 0x60 4 3 ∧ bits 0x03E70001 16 16 < 1000) ∧ bits 0 0 3 = 0 ∧ (bits 4 0 8 < 5 ∧ 100 < bits 101 0 8 ∧ bits 0x090105 16 8 < 10)
    ∧ 1200 < bits 1201 0 12 ∧ 10 * bits 0x010A00 16 8 ≤ bits 0x010A00 8 8
    ∧ ∃ s : State, (∀ a, Writes s0 a s) ∧ s.pwr.battCfg.getLsbD 31 = true ∧ s.hb.addrCfg.getLsbD 31 = true
        ∧ s.door.outCfg.getLsbD 31 = true ∧ s.door.inCfg.getLsbD 31 = true :=
  ⟨fun _ => writes (by decide), by decide, by decide, by decide, ⟨by decide, by decide, by decide, 2, by decide⟩, by decide, by decide
  , ⟨up1.onBooth 1 fun x => { x with slots := 0x100 }, fun _ => writes (by decide), by decide⟩, by decide, by decide, by decide, by decide
  , by decide
  , ⟨{ up with pwr := { up.pwr with battCfg := 0x80000000 }, hb := { up.hb with addrCfg := 0x80000000 }
               door := { up.door with outCfg := 0x80000000, inCfg := 0x80000000 } }, fun _ => writes (by decide), by decide⟩⟩

theorem witness_RegisterPortReachesTheMap :
    (∀ a, Writes s0 a up) ∧ (up.rx.mode ≠ .datacast ∧ up.rx.mode ≠ .fm) ∧ Writes s1 0x3C up1 ∧ Writes s1 0xFC up1
    ∧ ((0x204 : Half).toNat % 4 = 0 ∧ writable 0x204 = false ∧ writable 0xFFC = false) ∧ (0xFC < 0x100 ∧ 0xFC % 4 = 0)
    ∧ (0x100 ≤ (0x100 : Half).toNat ∧ (0xFFC : Half).toNat < 0x1000)
    ∧ (busAnswers up s0 true = true ∧ up.hb.asleep = false
        ∧ ¬ ((2 : Half).toNat % 4 = 0) ∧ ¬ ((0x1000 : Half).toNat < 0x1000))
    ∧ (busAnswers up1 s1 true = true ∧ up1.hb.asleep = false ∧ up1.boot.loader = false ∧ (up1.booth 1).mode = .enabled
        ∧ (up1.booth 0).mode = .enabled) :=
  ⟨fun _ => writes (by decide), by decide, writes1 (by decide), writes1 (by decide), by decide, by decide, by decide, by decide, by decide⟩

/-- Hold-safe with a record in slot A. -/
def held : State := { up with phase := .holdSafe, boot := { up.boot with ready := true }, err := { up.err with aValid := true } }

theorem witness_ErrorAcknowledgeAndHoldExit :
    (held.pwr.vddioOk = true ∧ up.pwr.vddioOk = true ∧ up.phase = .running ∧ up.rx.synOn = false
        ∧ ∀ b, (sigOf up b).testBit 0 = true → anySignal (up.booth b) = false)
    ∧ (∃ s : State, s.pwr.vddioOk = true ∧ s.phase = .running ∧ ∃ b, (sigOf s b).testBit 1 = true ∧ anySignal (s.booth b) = true)
    ∧ (Writes s0 0x748 up ∧ up.phase ≠ .holdSafe) ∧ (Writes s0 0x748 held ∧ held.phase = .holdSafe)
    ∧ (held.err.aValid && !(2 : Word).getLsbD 0) = true
    ∧ (held.err.aValid && !(1 : Word).getLsbD 0) = false ∧ (held.err.bValid && !(1 : Word).getLsbD 1) = false :=
  ⟨by decide
  , ⟨(up1.onCmd fun c => { c with sig := 0x20 }).onBooth 1 fun x => { x with pend := x.pend.set 0 1, mask := x.mask.set 0 1 }, rfl, rfl, 1, by decide⟩
  , ⟨writes (by decide), by decide⟩, ⟨writes (by decide), by decide⟩, by decide⟩

/-! ### A signature that verifies over every message: R and the key encode the neutral point, S is 0. -/

def idPk : Bytes := 1 :: zeros 31
def idSig : Bytes := idPk ++ zeros 32

/-- A representation of the neutral point. -/
def Neutral (p : EdPoint) : Prop := p.x = 0 ∧ p.t = 0 ∧ p.y = p.z

theorem edP_pos : 0 < edP := by decide

theorem neutral_zero : Neutral edZero := ⟨rfl, rfl, rfl⟩

theorem neutral_add {p q : EdPoint} (hp : Neutral p) (hq : Neutral q) : Neutral (edAdd p q) := by
  obtain ⟨px, py, pz, pt⟩ := p
  obtain ⟨qx, qy, qz, qt⟩ := q
  simp only [Neutral] at hp hq
  obtain ⟨rfl, rfl, rfl⟩ := hp
  obtain ⟨rfl, rfl, rfl⟩ := hq
  have sub0 : ∀ a, fSub a 0 = a % edP := fun a => by simp [fSub]
  have add0 : ∀ a, fAdd a 0 = a % edP := fun a => by simp [fAdd]
  have self : ∀ a, fSub a a = 0 := fun a => by
    have e : a + edP - a = edP := by omega
    simp [fSub, e]
  have hd : fAdd (fMul (py % edP) (qy % edP)) (fMul (py % edP) (qy % edP)) = fMul (2 * py) qy := by
    simp [fAdd, fMul, ← Nat.two_mul, Nat.mul_assoc]
  have z1 : ∀ a b, fMul (fMul (2 * 0) a) b = 0 := fun a b => by simp [fMul]
  have z2 : ∀ a, fMul 0 a = 0 := fun a => by simp [fMul]
  have m : ∀ a b, fMul a b % edP = fMul a b := fun a b => by simp [fMul]
  refine ⟨?_, ?_, ?_⟩
  · simp only [edAdd, sub0, add0, self, z2]
  · simp only [edAdd, sub0, add0, self, z2]
  · simp only [edAdd, sub0, add0, z1, hd, m]

theorem neutral_mul {p : EdPoint} (hp : Neutral p) : ∀ n k, Neutral (edMul n k p)
  | 0, _ => neutral_zero
  | n + 1, k => by
    have h := neutral_mul (neutral_add hp hp) n (k / 2)
    simp only [edMul]
    split
    · exact neutral_add h hp
    · exact h

theorem neutral_mul_zero (n : Nat) : ∀ p, Neutral (edMul n 0 p) := by
  induction n with
  | zero => exact fun _ => neutral_zero
  | succ n ih =>
    intro p
    rw [edMul]
    exact ih _

theorem neutral_eq {p q : EdPoint} (hp : Neutral p) (hq : Neutral q) : edEq p q = true := by
  obtain ⟨a, _, b⟩ := hp
  obtain ⟨c, _, d⟩ := hq
  simp [edEq, a, b, c, d, fMul, Nat.mul_comm]

theorem idPk_decodes : edDecode idPk = some edZero := by decide +kernel

theorem idSig_verifies (msg : Bytes) : edVerify idPk idSig msg = true := by
  have h1 : idSig.take 32 = idPk := by decide
  have h2 : ofLe (idSig.drop 32) = 0 := by decide
  have h3 : ¬ (idSig.length ≠ 64 ∨ 0 ≥ edL) := by decide
  simp only [edVerify, h1, h2, if_neg h3, idPk_decodes]
  exact neutral_eq (neutral_mul_zero _ _) (neutral_add neutral_zero (neutral_mul neutral_zero _ _))

/-- The owner key is `pk`, and the hash cell holds `h`. -/
def withOwner (pk h : Bytes) (s : State) : State :=
  (withCell 2 h 7 s).onBoot fun b => { b with ownerKey := some pk }

theorem ownerKey_withOwner (pk h : Bytes) (s : State) (e : sha256 pk = h) : ownerKey (withOwner pk h s) = some pk :=
  if_pos e

theorem owner_verifies (s : State) (msg : Bytes) : ownerVerifies (withOwner idPk (sha256 idPk) s) idSig msg = true := by
  simp only [ownerVerifies, ownerKey_withOwner idPk _ s rfl, idSig_verifies]

/-- The engines have no part in it. -/
theorem ownerVerifies_keep (f : Keep → Keep) (s : State) (sig msg : Bytes) : ownerVerifies (s.onKeep f) sig msg = ownerVerifies s sig msg := rfl

/-! ### Witnesses: gates, ports, the debug port, pins, PBUS -/

theorem witness_ClockOutputAndGateWritesTakeEffect :
    (∀ a, Writes s0 a up)
    ∧ ((1 : Word).getLsbD 0 = true ∧ up.rx.refLost = false ∧ (heldOff up).getLsbD 7 = false ∧ (0 : Word).getLsbD 0 = false)
    ∧ (bits 0x03E80051 4 3 < 6 ∧ 1000 ≤ bits 0x03E80051 16 16 ∧ bits 0xC3500051 16 16 ≤ 50000)
    ∧ (∃ s : State, (∀ a, Writes s0 a s) ∧ s.rx.fcw = some (0x60000000, 1) ∧ (0x03E80051 : Word) &&& 0xFFFF0073 ≠ s.rx.clk1)
    ∧ bits 0x300 0 3 = bits up.pwr.tcxoCfg 0 3
    ∧ (up.pwr.leased = 0 ∧ up.pwr.override_ = 0 ∧ up.pwr.gatePend = 0 ∧ (0x100 : Word).getLsbD 8 = true ∧ up.pwr.gateReq.getLsbD 8 = false)
    ∧ ∃ s : State, (∀ a, Writes s0 a s) ∧ (1 : Word).truncate 9 &&& ~~~ s.pwr.gateReq &&& ~~~ s.pwr.leased.zeroExtend 9 = 0 :=
  ⟨fun _ => writes (by decide), by decide, by decide
  , ⟨up.onRx fun r => { r with fcw := some (0x60000000, 1) }, fun _ => writes (by decide), by decide⟩, by decide, by decide
  , ⟨up.onPwr fun p => { p with leased := 1 }, fun _ => writes (by decide), by decide⟩⟩

/-- The event port is selected for booth 1. -/
def events : State := up1.onHb fun h => { h with sel := h.sel.set 1 .event }

theorem witness_PortsHandOutRepliesAndEvents :
    (busAnswers up1 s1 false = true ∧ up1.hb.asleep = false ∧ addrMode up1 ≠ 2 ∧ up1.hb.sel.get 1 = .reply ∧ (up1.booth 1).replies = [])
    ∧ (∃ s : State, busAnswers s s1 false = true ∧ s.hb.asleep = false ∧ addrMode s ≠ 2 ∧ s.hb.sel.get 1 = .reply
        ∧ (s.booth 1).replies = waits 1 false :: [])
    ∧ (busAnswers up1 s1 true = true ∧ (up1.booth 1).mode = .enabled)
    ∧ (busAnswers events s1 false = true ∧ events.hb.asleep = false ∧ events.boot.loader = false ∧ addrMode events ≠ 2
        ∧ events.hb.sel.get 1 = .event ∧ (events.booth 1).mode = .enabled)
    ∧ ((∀ v ∈ [0, 543, 0xFFFF], v ≤ 543 ∨ v = 0xFFFF) ∧ busFits s1 (2 * 3 + 2 + 4) = true) ∧ 543 < 544 ∧ 0xFFFE < 0xFFFF :=
  ⟨by decide, ⟨up1.onBooth 1 fun x => { x with replies := [waits 1 false] }, by decide⟩, by decide, by decide, by decide, by decide, by decide⟩

theorem witness_AccessPastTheViewIsReported :
    busAnswers up1 s1 true = true ∧ up1.hb.asleep = false ∧ up1.boot.loader = false ∧ (1 : Booth) ≠ 0 ∧ (up1.booth 1).mode = .enabled
    ∧ (up1.booth 0).mode = .enabled ∧ (0x200 < (0x1FC : Half).toNat + 5 ∧ (0xFFC : Half).toNat < 0x1000) ∧ (4 : Nat) ≤ 4
    ∧ (busFits s1 5 = true ∧ busFits { booth := 1, path := .debug } 255 = true ∧ busFits { booth := 1, path := .debug } 256 = false)
    ∧ (0x100 ≤ (0x100 : Half).toNat) ∧ (0x1000 : Half).toNat % 4 = 0 ∧ 0x1000 ≤ (0x1000 : Half).toNat ∧ (2 : Half).toNat % 4 ≠ 0 := by
  decide

theorem witness_BusWakeAndInBandRequests :
    (∀ used, ∃ s : State, s.hb.asleep = true ∧ busAnswers s s1 false = true ∧ s.hb.cfg.getLsbD 4 = true ∧ s.keep.drbgUsed = used)
    ∧ (∃ s : State, s.hb.ibrBusy = none ∧ s.hb.ibrQuiet = none ∧ ibrReady s 1 = true ∧ ∀ c : Booth, c < 1 → ibrReady s c = false)
    ∧ ∃ s : State, s.hb.ibrBusy = some 1 ∧ addrMode s ≠ 2 ∧ s.boot.loader = false :=
  ⟨fun used => ⟨{ up1 with hb := { up1.hb with asleep := true, cfg := 0x000A0012 }, keep := { up1.keep with drbgUsed := used } }
    , rfl, by cases used <;> decide, (by decide : (0x000A0012 : Word).getLsbD 4 = true), rfl⟩
  , ⟨{ up1 with hb := { up1.hb with cfg := 0x000A0102, ibrReq := 2 }, cmd := { up1.cmd with sig := 0x40 } }.onBooth 1
        fun x => { x with replies := [waits 1 false] }, by decide⟩
  , ⟨up1.onHb fun h => { h with ibrBusy := some 1 }, by decide⟩⟩

/-- The debug port requires a challenge and a nonce is outstanding. -/
def challenged (s : State) : State := s.onBoot fun b => { b with dbg := .challenge, nonce := some (ramp 16) }

/-- A debug signature has its turn on the engine. -/
def signing (s : State) : State := s.onKeep fun k =>
  { k with hash := { cur := some (.cmd { booth := 0, tag := 0, op := .dbgSig (some (ramp 16)) idSig } [] none), queue := [] } }

theorem witness_DebugChallengeOpensThePort :
    (∃ s : State, (s.phase = .running ∨ s.phase = .holdSafe) ∧ s.boot.loader = false ∧ s.boot.dbg = .challenge ∧ s.keep.rngFailing = false
        ∧ EngineFree .hash s ∧ (1 ≤ idSig.length ∧ idSig.length ≤ 255)
        ∧ ∃ nonce, s.boot.nonce = some nonce ∧ ownerVerifies s idSig (nonce ++ leBytes 8 Config.idUnique.toNat) = true)
    ∧ (∃ s : State, (s.phase = .running ∨ s.phase = .holdSafe) ∧ s.boot.loader = false ∧ s.boot.dbg = .challenge ∧ s.keep.rngFailing = true
        ∧ EngineFree .hash s
        ∧ ∀ nonce, s.boot.nonce = some nonce → ownerVerifies s idSig (nonce ++ leBytes 8 Config.idUnique.toNat) = false)
    ∧ (∃ s : State, (s.phase = .running ∨ s.phase = .holdSafe) ∧ s.boot.loader = false ∧ s.boot.dbg = .challenge ∧ s.keep.hash.cur ≠ none)
    ∧ ∀ good : Bool, ∃ s : State, (s.phase = .running ∨ s.phase = .holdSafe) ∧ s.boot.loader = false ∧ s.boot.dbg = .challenge
        ∧ s.keep.cpWanted = false ∧ s.car.queue = []
        ∧ s.keep.hash = { cur := some (.cmd { booth := 0, tag := 0, op := .dbgSig (some (ramp 16)) idSig } [] none), queue := [] }
        ∧ ownerVerifies s idSig (ramp 16 ++ leBytes 8 Config.idUnique.toNat) = good :=
  ⟨⟨withOwner idPk (sha256 idPk) (challenged up), by decide, rfl, rfl, rfl, ⟨rfl, rfl, rfl⟩, by decide +kernel, ramp 16, rfl, owner_verifies _ _⟩
  , ⟨challenged noisy, by decide, rfl, rfl, rfl, ⟨rfl, rfl, rfl⟩, fun _ _ => rfl⟩
  , ⟨(challenged up).onKeep fun k => { k with hash := { cur := some .car, queue := [] } }, by decide⟩
  , fun good => by
      cases good
      · exact ⟨signing (challenged up), by decide, rfl, rfl, rfl, rfl, rfl, rfl⟩
      · exact ⟨signing (withOwner idPk (sha256 idPk) (challenged up)), by decide, rfl, rfl, rfl, rfl, rfl
          , (ownerVerifies_keep _ _ _ _).trans (owner_verifies _ _)⟩⟩

/-- GP0 and GP1 are sensed LOW, GP2 FLOAT; GP1 is an output and GP3 an input of booth 1. -/
def pinned : State := up1.onDoor fun d =>
  { d with rest := #v[.low, .low, .low, .low, .low, .float, .low]
           gp := #v[{ booth := none, out := false }, { booth := some 1, out := true }, { booth := none, out := false }
                   , { booth := some 1, out := false }] }

/-- GP3 is the TCXO enable. -/
def tcxo3 : State := pinned.onPwr fun p => { p with tcxoCfg := 0x304 }

theorem witness_GpCommandsActOnTheirPins :
    (Serves op_gpAssign Needs.none (own [3, 7, 1, 0]) tcxo3 ∧ tcxoPin tcxo3 = some 3)
    ∧ (Serves op_gpAssign Needs.none (own [2, 0, 1, 0]) pinned ∧ tcxoPin pinned ≠ some 2 ∧ pinned.door.rest.get (gpIdx 2) = .float)
    ∧ (Serves op_gpAssign Needs.none (own [3, 7, 1, 0]) pinned ∧ tcxoPin pinned ≠ some 3 ∧ pinned.door.rest.get (gpIdx 3) ≠ .float)
    ∧ (Serves op_gpWrite Needs.none (own [3, 0]) tcxo3 ∧ Serves op_gpWrite Needs.none (one [3, 1]) tcxo3)
    ∧ (Serves op_gpWrite Needs.none (one [0, 1]) pinned ∧ tcxoPin pinned ≠ some 0 ∧ (pinned.door.gp.get 0).booth ≠ some 1)
    ∧ (Serves op_gpWrite Needs.none (one [3, 1]) pinned ∧ (pinned.door.gp.get 3).booth = some 1 ∧ (pinned.door.gp.get 3).out = false)
    ∧ (Serves op_gpWrite Needs.none (one [1, 1]) pinned ∧ (pinned.door.gp.get 1).booth = some 1 ∧ (pinned.door.gp.get 1).out = true)
    ∧ Serves op_gpRead Needs.none (one []) pinned :=
  ⟨⟨serves_of (by decide), by decide⟩, ⟨serves_of (by decide), by decide⟩, ⟨serves_of (by decide), by decide⟩
  , ⟨serves_of (by decide), serves_of (by decide)⟩, ⟨serves_of (by decide), by decide⟩, ⟨serves_of (by decide), by decide⟩
  , ⟨serves_of (by decide), by decide⟩, serves_of (by decide)⟩

/-- Powered bus with a transfer of booth 1. -/
def xfer (onBus : Bool) (lost : Nat) : Xfer := { booth := 1, tag := 9, addr := 0x20, data := [], count := 2, lost := lost, onBus := onBus, wait := none }
def pbus : State :=
  (up1.onPb fun p => { p with cfg := 0x00190321, own := p.own.set 7 0x8120 }).onPwr fun p => { p with gateStat := 0 }
def moving (onBus : Bool) (lost : Nat) : State := pbus.onPb fun p => { p with xfer := some (xfer onBus lost) }

theorem witness_PbusTransfersRunAndEnd :
    (Serves op_pbusXfer (needsPbus pbus) (own [0x3C, 0, 2, 0]) pbus)
    ∧ (Serves op_pbusXfer (needsPbus pbus) (one [0x21, 0, 2, 0]) pbus
        ∧ ¬ ((1 : Booth) = 0 ∨ ∃ n : Fin 8, (pbus.pb.own.get n).getLsbD 15 = true ∧ bits (pbus.pb.own.get n) 0 7 = 0x21
          ∧ bits (pbus.pb.own.get n) 8 3 = 1))
    ∧ (Serves op_pbusXfer (needsPbus pbus) (one [0x20, 1, 2, 0, 5]) pbus
        ∧ (∃ n : Fin 8, (pbus.pb.own.get n).getLsbD 15 = true ∧ bits (pbus.pb.own.get n) 0 7 = 0x20 ∧ bits (pbus.pb.own.get n) 8 3 = 1)
        ∧ pbus.pb.xfer = none ∧ pbus.pb.queue = [] ∧ pbus.pwr.gateStat.getLsbD 5 = false ∧ pbus.pb.disabled = false
        ∧ pbus.pb.cfg.getLsbD 9 = true)
    ∧ (Serves op_pbusXfer (needsPbus (moving true 0)) (one [0x20, 1, 2, 0, 5]) (moving true 0) ∧ (moving true 0).pb.xfer ≠ none)
    ∧ (∃ s : State, Serves op_pbusXfer (needsPbus s) (own [127, 0, 2, 0]) s ∧ s.pb.disabled = true ∧ s.pb.xfer = none
        ∧ s.pb.queue = [] ∧ s.pwr.gateStat.getLsbD 5 = false)
    ∧ (∀ level, level = 35 ∨ level = 0 → ∃ s : State, Serves op_pbusXfer (needsPbus s) (one [0x20, 1, 2, 0, 5]) s ∧ s.pb.xfer = none
        ∧ s.pwr.gateStat.getLsbD 5 = true ∧ s.pwr.releasing.getLsbD 5 = false ∧ s.pwr.level = level ∧ 0 < preLevel s 5 ∧ preLevel s 5 ≤ 35)
    ∧ ((moving false 6).pb.xfer = some (xfer false 6) ∧ (moving false 7).pb.xfer = some (xfer false 7) ∧ (moving true 0).pb.xfer = some (xfer true 0)
        ∧ (moving false 7).phase = .running ∧ (moving false 7).boot.loader = false ∧ (moving false 7).pb.disabled = false
        ∧ (moving false 7).pb.cfg.getLsbD 9 = true) :=
  ⟨serves_of (by decide), ⟨serves_of (by decide), by decide⟩, ⟨serves_of (by decide), by decide⟩, ⟨serves_of (by decide), by decide⟩
  , ⟨pbus.onPb fun p => { p with disabled := true }, serves_of (by decide), by decide⟩
  , fun level h => by
      rcases h with rfl | rfl
      · exact ⟨pbus.onPwr fun p => { p with gateStat := 0x20, trackCtrl := 0 }, serves_of (by decide), by decide⟩
      · exact ⟨pbus.onPwr fun p => { p with gateStat := 0x20, level := 0, trackCtrl := 0 }, serves_of (by decide), by decide⟩
  , by decide⟩

/-- A report from reader 3 with a good CRC, by the model's own CRC. -/
def report : Bytes := [1, 3] ++ zeros 32 ++ leBytes 2 (crc16 ([1, 3] ++ zeros 32)).toNat

def target : State := pbus

theorem witness_CredentialReportsReachTheIntake :
    (target.phase = .running ∧ target.pb.cfg.getLsbD 8 = true ∧ target.pb.disabled = false ∧ target.pwr.gateStat.getLsbD 5 = false
        ∧ target.hb.asleep = false ∧ target.boot.loader = false ∧ intakeReports target < 4)
    ∧ (∃ s : State, s.phase = .running ∧ s.pb.cfg.getLsbD 8 = true ∧ s.pb.disabled = false ∧ s.pwr.gateStat.getLsbD 5 = false
        ∧ s.hb.asleep = false ∧ s.boot.loader = false ∧ 4 ≤ intakeReports s)
    ∧ (report.length = 36 ∧ byteAt report 0 = 1 ∧ (byteAt report 1).toNat ≤ 3 ∧ crc16 (report.take 34) = BitVec.ofNat 16 (leField report 34 2))
    ∧ ¬ (report.tail.length = 36)
    ∧ (up.phase = .running ∧ up.pwr.vddioOk = true)
    ∧ (∃ s : State, s.phase = .running ∧ s.pwr.vddioOk = true ∧ s.pwr.gateReq.getLsbD 5 = true)
    ∧ (pbus.phase = .running ∧ pbus.pwr.vddioOk = true ∧ pbus.pwr.gateReq.getLsbD 5 = false ∧ pbus.pwr.gateStat.getLsbD 5 = false)
    ∧ (∀ level, level = 35 ∨ level = 0 → ∃ s : State, s.phase = .running ∧ s.pwr.vddioOk = true ∧ s.pwr.gateReq.getLsbD 5 = false
        ∧ s.pwr.gateStat.getLsbD 5 = true ∧ s.pwr.releasing.getLsbD 5 = false ∧ s.pwr.level = level ∧ 0 < preLevel s 5 ∧ preLevel s 5 ≤ 35)
    ∧ (∃ s : State, s.phase = .running ∧ s.hb.asleep = true ∧ s.pb.xfer = none ∧ s.pwr.gateStat.getLsbD 5 = false)
    ∧ Serves op_credSubmit Needs.none (one (zeros 32)) up1 :=
  ⟨by decide, ⟨target.onVd fun v => { v with intake := List.replicate 4 { token := zeros 32, via := .pbus 0 } }, by decide⟩, by decide +kernel
  , by decide, by decide, ⟨up.onPwr fun p => { p with gateReq := 0x20 }, by decide⟩, by decide
  , fun level h => by
      rcases h with rfl | rfl
      · exact ⟨pbus.onPwr fun p => { p with gateStat := 0x20 }, by decide⟩
      · exact ⟨pbus.onPwr fun p => { p with gateStat := 0x20, level := 0 }, by decide⟩
  , ⟨pbus.onHb fun h => { h with asleep := true }, by decide⟩, serves_of (by decide)⟩

/-- FIELD with lock group, door and an epoch key; group 1 may always pass; the time is known. -/
def atDoor : State :=
  { withKey 2 .epoch256 (zeros 32) up with
    nv := { (withKey 2 .epoch256 (zeros 32) up).nv with
      keys := (withKey 2 .epoch256 (zeros 32) up).nv.keys.set 2 { typ := .epoch256, key := zeros 32, gen := 1, epoch := 1, fromCar := true }
      spore := [{ cell := 0, value := [2], left := 1 }, { cell := 4, value := [1, 0], left := 15 }, { cell := 5, value := [1, 0], left := 15 }] }
    mem := [(rightsBase + 4, 0xFF)]
    door := { up.door with rest := Vector.replicate 7 .low }
    ao := { up.ao with known := true, u := some 0, fine := 1000 * fineSec } }

/-- A STATIC token of group 1 for every door, before its tag, and with the tag that the epoch key gives. -/
def untagged (id : Byte) : Bytes :=
  [1, 1, id, 0, 0, 0, 0, 0, 1, 0, 0xFF, 0xFF, 0, 0, 0, 0, 0xFF, 0xFF, 0xFF, 0xFF, 1, 0, 0, 0]

def tagKey : Bytes := kdf (zeros 32) [0x54, 0x4F, 0x4B] [1, 0, 1, 0] 16

def token (id : Byte) : Bytes := untagged id ++ (cmac tagKey (untagged id)).take 8

theorem token_tagged (id : Byte) (s : State) (h : (keySlot s (epochSlot s (token id))).key = zeros 32) : tagOk s (token id) = true := by
  have t : (token id).take 24 = untagged id := rfl
  have k : kdf (keySlot s (epochSlot s (token id))).key [0x54, 0x4F, 0x4B] (sub (token id) 8 2 ++ sub (token id) 20 2) 16 = tagKey := by
    rw [h]; rfl
  have g : sub (token id) 24 8 = (cmac tagKey (untagged id)).take 8 := by
    show (((cmac tagKey (untagged id)).take 8).take 8) = _
    rw [List.take_take]
    rfl
  simp only [tagOk, t, k, g, decide_true]

/-- A token's checks come to the last ones. -/
theorem token_checked {id : Byte} {s : State} (e : earlyCode s (token id) = none)
    (h : (keySlot s (epochSlot s (token id))).key = zeros 32) :
    checks s s [] [] (token id) = lateCode s s (lookUp s s [] [] (token id)) (token id) := by
  simp only [checks, e, token_tagged id s h, if_pos]

def winOf (members : List Member) (expect : Nat) : Win :=
  { members := members, expect := expect, closed := false, latchAt := 0, revSeen := false }

/-- The credential of a token waits for the engine, the window holds these members. -/
def offered (t : Bytes) (members : List Member) (s : State) : State :=
  s.onVd fun v => { v with intake := [{ token := t, via := .host 0 5 }], windows := [winOf members 1] }

theorem token_granted (m : List Member) :
    checks (offered (token 1) m atDoor) (offered (token 1) m atDoor) [] [] (token 1) = 0x00 :=
  (token_checked rfl rfl).trans rfl

theorem witness_FirstFailingCheckDecidesTheVerdict :
    ∃ s : State, s.phase = .running ∧ s.boot.loader = false ∧ s.vd.intake = { token := (token 1), via := .host 0 5 } :: []
      ∧ s.vd.windows = [winOf [] 1] ∧ s.err.bad = [] ∧ mayMove s = true ∧ s.door.latch = .idle ∧ heldIdle s 2 = false
      ∧ checks s s [] [] (token 1) = 0x00 :=
  ⟨offered (token 1) [] atDoor, rfl, rfl, rfl, rfl, rfl, by decide, by decide, by decide, token_granted _⟩

def member (t : Bytes) (code : Byte) : Member :=
  { token := t, via := .host 0 4, code := code, own := code, tagged := true, dup := false, seq := 0, ordinal := 0, flags := 0, time := 0
    ms := 0, unc := 0 }

theorem witness_WindowsJoinCredentialsAndWriteVerdicts :
    (∀ code : Byte, code = 0x15 ∨ code = 0x00 ∨ code = 0x01 → ∃ s : State, s.phase = .running ∧ s.boot.loader = false
      ∧ s.vd.windows = [winOf [member (token 2) code] 1] ∧ s.err.bad = [] ∧ s.vd.noMove = false ∧ checks s s [] [] (token 1) = 0x00
      ∧ tokId (token 1) ≠ tokId (token 2) ∧ cellNat s 9 = 0)
    ∧ (∃ s : State, s.vd.windows = [winOf [member (token 2) 0x00] 1] ∧ checks s s [] [] (token 1) = 0x15 ∧ s.door.byGrant = true
        ∧ mayMove s = true ∧ s.door.latch = .opening)
    ∧ (∃ s : State, s.vd.windows = [winOf [member (token 1) 0x00] 1] ∧ checks s s [] [] (token 1) = 0x00
        ∧ (member (token 1) 0x00).tagged = true ∧ earlyFail 0x00 = false)
    ∧ (∃ s : State, s.vd.windows = [winOf [member (token 1) 0x00] 1] ∧ checks s s [] [] (token 1) = 0x00 ∧ logSealed s = true)
    ∧ (∃ (s : State) (w : Win), s.phase = .running ∧ s.vd.windows = [w] ∧ w.members = [member (zeros 32) 0x00] ∧ w.closed = false
        ∧ w.expect = 0 ∧ (zeros 32).length = 32 ∧ s.vd.wait = [none] ∧ (member (zeros 32) 0x00).seq = s.nv.log.next
        ∧ s.nv.log.next < 0xFFFFFFFFFE)
    ∧ ∃ s : State, s.phase = .running ∧ s.keep.held = true := by
  refine ⟨?_, ?_, ⟨offered (token 1) [member (token 1) 0x00] atDoor, rfl, token_granted _, rfl, rfl⟩
    , ⟨(offered (token 1) [member (token 1) 0x00] atDoor).onNv fun n => { n with log := { n.log with sealed_ := true } }, rfl
      , (token_checked rfl rfl).trans rfl, rfl⟩, ?_, ⟨up.onKeep fun k => { k with held := true }, rfl, rfl⟩⟩
  · rintro code _
    exact ⟨offered (token 1) [member (token 2) code] atDoor, rfl, rfl, rfl, rfl, rfl, token_granted _, by decide, rfl⟩
  · let s := (offered (token 1) [member (token 2) 0x00] atDoor).onNv fun n => { n with revoked := [1] }
    refine ⟨s.onDoor fun d => { d with latch := .opening, byGrant := true }, rfl, (token_checked rfl rfl).trans rfl, by decide⟩
  · exact ⟨atDoor.onVd fun v => { v with windows := [winOf [member (zeros 32) 0x00] 0], wait := [none] }, _, rfl, rfl, rfl, rfl, rfl, rfl
      , rfl, rfl, by decide⟩

/-! ### Witnesses: the door, supplies, leases -/

/-- A movement with a stall level and the two motor pins driven. -/
def turning (l : LatchState) (motor : Word) : State := atDoor.onDoor fun d =>
  { d with latch := l, seqMotor := motor, motorLock := true, pins := #v[.active, .rest, .active, .z, .z, .z, .z] }

theorem atRest_low {s : State} (h : s.door.rest = Vector.replicate 7 .low) : PinsAtRest s.door := by
  intro i _
  rw [h]
  exact Or.inl ((by decide : ∀ j : Fin 7, (Vector.replicate 7 RestCode.low).get j = .low) i)

theorem witness_LatchMovesAsItsSensesAndTimersSay :
    (∀ l : LatchState, ∀ motor : Word, PinsAtRest (turning l motor).door ∧ (turning l motor).phase = .running
        ∧ (turning l motor).boot.loader = false ∧ (turning l motor).door.dead = none ∧ (turning l motor).door.latch = l
        ∧ (turning l motor).door.seqMotor = motor ∧ LogReady (turning l motor) ∧ ((turning l motor).door.pins.get 0).driven = true
        ∧ mayMove (turning l motor) = true)
    ∧ (bits 0x190 0 12 ≠ 0 ∧ bits 0 0 12 = 0)
    ∧ (∃ s : State, mayMove s = true ∧ s.door.latch = .dwell ∧ s.door.dead = none ∧ s.door.motorLock = true ∧ s.door.open_ = true)
    ∧ (∃ s : State, mayMove s = true ∧ s.door.latch = .dwell ∧ s.door.dead = none ∧ s.door.motorLock = false)
    ∧ (∃ s : State, mayMove s = true ∧ s.door.latch = .fault ∧ s.door.retryWait = true)
    ∧ (∀ d : AfterDead, ∃ s : State, mayMove s = true ∧ s.door.dead = some d ∧ heldIdle s 2 = false)
    ∧ ∃ s : State, s.door.pins.get (RestPin.idx .latchA) = .letGo :=
  ⟨fun l motor => ⟨atRest_low rfl, rfl, rfl, rfl, rfl, rfl, logReady ⟨rfl, rfl, (by decide : (0 : Nat) + 1 < sealSeq)⟩, rfl, rfl⟩, by decide
  , ⟨(turning .dwell 0).onDoor fun d => { d with open_ := true }, by decide⟩
  , ⟨(turning .dwell 0).onDoor fun d => { d with motorLock := false }, by decide⟩
  , ⟨(turning .fault 0).onDoor fun d => { d with retryWait := true }, by decide⟩
  , fun d => ⟨(turning .opening 0).onDoor fun x => { x with dead := some d }, rfl, rfl, (by cases d <;> decide)⟩
  , ⟨up.onDoor fun d => { d with pins := d.pins.set 0 .letGo }, by decide⟩⟩

theorem witness_DoorInputsRaiseAndLog :
    (up.phase = .running ∧ up.boot.loader = false ∧ LogReady up ∧ up.door.open_ = false ∧ up.door.privacy = false ∧ up.door.handle = false
        ∧ up.nv.log.next + 2 < sealSeq ∧ up.ao.tamper = false ∧ up.pwr.vddioOk = true)
    ∧ (∀ d : Door → Door, LogReady (up.onDoor d))
    ∧ (∃ s : State, s.phase = .running ∧ s.boot.loader = false ∧ s.door.open_ = true ∧ s.door.latch = .waiting ∧ s.door.dead = none
        ∧ mayMove s = true ∧ s.door.privacy = true ∧ s.door.handle = true)
    ∧ (∃ s : State, s.door.latch = .idle ∧ restOk s = true ∧ s.door.handle = false ∧ (∀ k, s.door.handleTick = some k → k + 65536 < s.ao.rtc)
        ∧ mayMove s = true ∧ heldIdle s 2 = false)
    ∧ bits 2 0 2 = 2
    ∧ ∃ s : State, (s.phase = .reset ∨ s.phase = .booting) ∧ s.boot.loader = false ∧ s.pwr.vddioOk = true :=
  ⟨⟨rfl, rfl, logReady (by decide), by decide⟩, fun _ => logReady ⟨rfl, rfl, (by decide : (0 : Nat) + 1 < sealSeq)⟩
  , ⟨(turning .waiting 0).onDoor fun d => { d with open_ := true, privacy := true, handle := true }, by decide⟩
  , ⟨atDoor, rfl, rfl, rfl, fun _ h => (nomatch h), rfl, rfl⟩, by decide, ⟨{ up with phase := .booting }, by decide⟩⟩

theorem witness_LatchCommandsOpenHoldAndRelease :
    Serves op_latchCmd Needs.none (own [3, 0, 1, 0]) up ∧ Serves op_latchCmd Needs.none (own [0, 0, 0, 0]) up
    ∧ (Serves op_latchCmd Needs.none (own [2, 0, 0, 0]) up ∧ restOk up = false)
    ∧ (Serves op_latchCmd Needs.none (own [0, 0, 1, 0]) atDoor ∧ Serves op_latchCmd Needs.none (own [2, 0, 0, 0]) atDoor ∧ restOk atDoor = true
        ∧ LogReady atDoor ∧ mayMove atDoor = true ∧ atDoor.door.latch = .idle ∧ heldIdle atDoor 2 = false)
    ∧ (Serves op_latchCmd Needs.none (own [1, 0, 0, 0]) (turning .opening 0) ∧ restOk (turning .opening 0) = true
        ∧ LogReady (turning .opening 0) ∧ mayMove (turning .opening 0) = true ∧ (turning .opening 0).door.dead = none)
    ∧ Serves op_doorStatus Needs.none (one []) up1 :=
  ⟨serves_of (by decide), serves_of (by decide), ⟨serves_of (by decide), by decide⟩
  , ⟨serves_of (by decide), serves_of (by decide), by decide, logReady (by decide), by decide⟩
  , ⟨serves_of (by decide), by decide, logReady (by decide), by decide⟩, serves_of (by decide)⟩

def pass (percent : Nat) : TrackEnv := { temp := 21, vinMv := 3000, readings := [(0, percent)] }

theorem witness_TrackingFollowsTheCanaries :
    (up.phase = .running ∧ up.boot.loader = false ∧ bits up.pwr.trackCtrl 0 2 = 0 ∧ up.pwr.level ≤ 35 ∧ floorSetting up 0 = true
        ∧ up.pwr.releasing = 0)
    ∧ (∀ n, (0, n) ∈ (pass n).readings ∧ ∀ r ∈ (pass n).readings, floorSetting up r.1 = true → r.2 ≤ n)
    ∧ (∃ s : State, s.phase = .running ∧ s.boot.loader = false ∧ bits s.pwr.trackCtrl 0 2 = 0 ∧ floorSetting s 10 = true ∧ s.pwr.level = 34)
    ∧ (up.pwr.level = 35 ∧ up.pwr.limit = false ∧ up.err.aValid = false) ∧ (85 < 86 ∧ 75 < 76)
    ∧ ((0, 86) ∈ [(0, 86), (4, 90)] ∧ floorSetting up 0 = true ∧ ∀ r ∈ [(0, 86), (4, 90)], 85 < r.2 → r = (0, 86) ∨ 0 < r.1)
    ∧ (∀ due, ∃ s : State, s.phase = .running ∧ bits s.pwr.trackCtrl 0 2 = 1 ∧ s.pwr.wakeDue = due)
    ∧ (∃ s : State, s.pwr.releasing ≠ 0 ∧ s.pb.xfer = none)
    ∧ (∃ (s : State) (run : PbusRun), s.pb.xfer = some { xfer false 0 with wait := some run } ∧ (xfer false 0).onBus = false ∧ s.phase = .running
        ∧ s.pwr.releasing.getLsbD 5 = true)
    ∧ up.phase ≠ .unpowered :=
  ⟨by decide, fun n => ⟨by simp [pass], by simp [pass]⟩, ⟨up.onPwr fun p => { p with trackCtrl := 0, level := 34 }, by decide⟩, by decide
  , by decide, by decide, fun due => ⟨up.onPwr fun p => { p with trackCtrl := 1, wakeDue := due }, rfl, (by decide : bits 1 0 2 = 1), rfl⟩
  , ⟨up.onPwr fun p => { p with releasing := 1 }, by decide⟩
  , ⟨(up.onPwr fun p => { p with releasing := 0x20 }).onPb fun p =>
        { p with xfer := some { xfer false 0 with wait := some { clearFirst := none, out := .addrNack } } }
    , { clearFirst := none, out := .addrNack }, by decide⟩, by decide⟩

theorem witness_LeasesHoldTheRadioChain :
    (radioUp atDoor = true ∧ atDoor.boot.loader = false ∧ atDoor.pwr.leased = 0 ∧ (0x02 : Half).getLsbD 1 = true
        ∧ (0x20 : Half).getLsbD 5 = true ∧ atDoor.pwr.gateReq.truncate 5 &&& ~~~ (overrideBits atDoor) = (0 : BitVec 5))
    ∧ (∃ s : State, radioUp s = true ∧ s.boot.loader = false ∧ s.pwr.leased = 0 ∧ s.pwr.gateReq.truncate 5 &&& ~~~ (overrideBits s) ≠ (0 : BitVec 5))
    ∧ (∃ s : State, s.pwr.leased ≠ 0 ∧ s.pwr.gateReq.getLsbD 4 = true ∧ s.pwr.gatePend.getLsbD 4 = true)
    ∧ (∃ s : State, s.pwr.leased ≠ 0 ∧ s.pwr.gateReq.getLsbD 4 = true ∧ s.pwr.override_.getLsbD 4 = true) :=
  ⟨by decide, ⟨up.onPwr fun p => { p with gateReq := 1 }, by decide⟩
  , ⟨up.onPwr fun p => { p with leased := 0x1F, gateReq := 0x10, gatePend := 0x10 }, by decide⟩
  , ⟨up.onPwr fun p => { p with leased := 0x1F, gateReq := 0x10, override_ := 0x10 }, by decide⟩⟩

/-! ### Witnesses: the radio and the carousel -/

def anEntry (k : CalKey) : CalEntry := { key := k, pvt := 0, acq := 0, gain := 0, temp := 0, crcOk := true }

/-- Usable calibration entries for a datacast channel and an FM segment; a mast on that channel was the last one heard. -/
def tuned (s : State) : State :=
  { s with nv := { s.nv with calTab := [anEntry (.dc 0x4007), anEntry (.fm 107), anEntry (fmKey 9800)] }, pwr := { s.pwr with dieTemp := 15, gateStat := 0 }
           rx := { s.rx with lastChan := some 0x4007, coexCfg := 3 } }

def aCal : CalRun := { temp := 0, pvt := 0, acq := 0, gain := 0, locks := true }

theorem aCal_good : aCal.good := ⟨rfl, rfl, rfl⟩

def listening (w : Window) (f : Option Frame) (s : State) : State :=
  s.onRx fun r => { r with mode := .datacast, chan := w.chan, lock := true, window := some w, frame := f, coexReq := true }

def openWin : Window := { freshWindow 0x4007 1 0 (some (0, 5)) true none with opened := true }

/-- A frame of a mode, with so many symbols. -/
def frameOf (mode nsym : Nat) : Frame :=
  { mode := mode, nsym := nsym, seed := 9, start := 0, ref := Instant.zero, corrHz := 0, timing := 0, erased := [] }

def aFrame : Frame := frameOf 0 7

def stopNow : State := listening openWin (some aFrame) up

theorem witness_DatacastWindowsOpenAndEnd :
    (Serves op_dcListen (needsRadio up) (own [0x08, 0x40, 1, 0]) up ∧ chanOk 0x4008 = false)
    ∧ (Serves op_dcListen (needsRadio up) (own [0x07, 0x40, 0x11, 0x27]) up ∧ 10000 < 0x2711)
    ∧ (Serves op_dcListen (needsRadio stopNow) (own [0x07, 0x40, 0x10, 0x27]) stopNow ∧ chanOk 0x4007 = true ∧ stopNow.rx.window ≠ none)
    ∧ (Serves op_dcListen (needsRadio (tuned up)) (own [0x07, 0x40, 1, 0]) (tuned up)
        ∧ (radioUp (tuned up) = true ∧ (tuned up).rx.window = none ∧ (tuned up).rx.listens = [] ∧ (tuned up).rx.calBg = none
            ∧ (tuned up).rx.refLost = false)
        ∧ usable (tuned up) (.dc 0x4007) = true ∧ aCal.good ∧ (tuned up).rx.coexCfg.getLsbD 0 = true ∧ (tuned up).rx.coexCfg.getLsbD 1 = true
        ∧ (tuned up).rx.stopped = false ∧ slotWanted (tuned up) { chan := 0x4007, mast := 1, types := 0, another := false } = true
        ∧ heldOff (tuned up) &&& 0x01F = 0)
    ∧ (∃ s : State, s.rx.stopped = true) ∧ slotWanted up { chan := 0x4007, mast := 1, types := 0, another := false } = false
    ∧ (stopNow.rx.window = some openWin ∧ stopNow.rx.frame ≠ none ∧ stopNow.car.partials = [])
    ∧ (∀ used, ∃ s : State, s.rx.window = some { openWin with opened := false } ∧ s.rx.coexReq = true ∧ s.rx.refLost = false ∧ s.rx.frame = none
        ∧ s.fm.hold = none ∧ s.rx.listens = [] ∧ s.boot.loader = false ∧ (heldOff s).getLsbD 2 = false ∧ usable s (.dc openWin.chan) = used
        ∧ s.pwr.leased = 0 ∧ s.pwr.gateStat.getLsbD 4 = false)
    ∧ Serves op_dcStop Needs.none (own []) stopNow ∧ Serves op_dcStart Needs.none (own []) up :=
  ⟨⟨serves_of (by decide), by decide⟩, ⟨serves_of (by decide), by decide⟩, ⟨serves_of (by decide), by decide⟩
  , ⟨serves_of (by decide), by decide, by decide, aCal_good, by decide⟩, ⟨up.onRx fun r => { r with stopped := true }, rfl⟩, by decide, by decide
  , fun used => by
      cases used
      · exact ⟨listening { openWin with opened := false } none (up.onPwr fun p => { p with gateStat := 0 }), by decide⟩
      · exact ⟨listening { openWin with opened := false } none (tuned up), by decide⟩
  , serves_of (by decide), serves_of (by decide)⟩

theorem witness_RadioLossesBlankingAndDeadlinesAreMet :
    (stopNow.rx.lock = true ∧ stopNow.boot.loader = false ∧ stopNow.rx.mode = .datacast ∧ stopNow.rx.window = some openWin
        ∧ openWin.ending = false ∧ stopNow.rx.inputV = false ∧ chanOk stopNow.rx.chan = true ∧ stopNow.rx.refLost = false
        ∧ stopNow.rx.frame ≠ none ∧ stopNow.rx.listens = [] ∧ openWin.opened = true ∧ openWin.blankLong = false ∧ openWin.saturated = false
        ∧ stopNow.err.aValid = false ∧ stopNow.car.partials = [] ∧ (heldOff stopNow).getLsbD 2 = false)
    ∧ (∃ s : State, needRef s = true ∧ s.rx.refLost = false ∧ s.boot.loader = false ∧ s.rx.window = none)
    ∧ (∃ s : State, s.rx.refLost = true ∧ s.boot.loader = false ∧ s.rx.window = some openWin ∧ usable s (.dc openWin.chan) = true
        ∧ aCal.good ∧ (heldOff s).getLsbD 2 = false)
    ∧ (∃ s : State, s.rx.refLost = true ∧ s.boot.loader = false ∧ s.rx.window = none ∧ s.fm.hold = some { booth := 1, freq := 9800, flags := 0 }
        ∧ usable s (fmKey 9800) = true ∧ aCal.stored = true ∧ aCal.entryOk = true ∧ aCal.bandOk = true ∧ (heldOff s).getLsbD 2 = false)
    ∧ (∃ s : State, s.rx.refLost = true ∧ s.boot.loader = false ∧ s.rx.window = none ∧ s.fm.hold = none)
    ∧ (∃ s : State, s.rx.dllLock = true ∧ s.boot.loader = false)
    ∧ (∀ m : RxMode, m = .standby ∨ m = .sleep → ∃ s : State, s.boot.loader = false ∧ s.rx.mode = m ∧ radioUp s = true ∧ s.rx.stopped = false
        ∧ s.rx.refLost = false ∧ s.rx.window = none ∧ (heldOff s).getLsbD 2 = false ∧ chanOk 0x4007 = true
        ∧ usable s (.dc 0x4007) = false)
    ∧ (∃ s : State, s.boot.loader = false ∧ s.rx.mode = .calibrating ∧ s.rx.calBg = some 0x4007)
    ∧ (∃ s : State, s.rx.window = some openWin ∧ s.boot.loader = false ∧ s.rx.mode = .datacast ∧ openWin.opened = true
        ∧ s.rx.frame = some aFrame ∧ s.rx.coexCfg.getLsbD 4 = true ∧ blanking s = true
        ∧ blanking (s.onRx fun r => { r with blankA := false }) = false)
    ∧ (∃ s : State, s.boot.loader = false ∧ s.rx.mode = .fm ∧ s.rx.satTick = some 1 ∧ s.ao.rtc < 1 + 32768)
    ∧ ∃ s : State, s.boot.loader = false ∧ s.rx.mode = .fm ∧ s.rx.window = none ∧ s.err.aValid = false
        ∧ ∀ k, s.rx.satTick = some k → k + 32768 ≤ s.ao.rtc :=
  ⟨by decide, ⟨up.onRx fun r => { r with mode := .standby }, by decide⟩
  , ⟨(listening openWin none (tuned up)).onRx fun r => { r with refLost := true }, rfl, rfl, rfl, by decide, aCal_good, by decide⟩
  , ⟨((tuned up).onFm fun f => { f with hold := some { booth := 1, freq := 9800, flags := 0 } }).onRx fun r => { r with refLost := true }, by decide⟩
  , ⟨up.onRx fun r => { r with refLost := true }, by decide⟩, ⟨up.onRx fun r => { r with dllLock := true }, by decide⟩
  , fun m h => by
      rcases h with rfl | rfl
      · exact ⟨up.onRx fun r => { r with mode := .standby }, by decide⟩
      · exact ⟨up, by decide⟩
  , ⟨up.onRx fun r => { r with mode := .calibrating, calBg := some 0x4007 }, by decide⟩
  , ⟨stopNow.onRx fun r => { r with blankA := true }, by decide⟩
  , ⟨up.onRx fun r => { r with mode := .fm, satTick := some 1 }, by decide⟩
  , ⟨up.onRx fun r => { r with mode := .fm }, rfl, rfl, rfl, rfl, fun _ h => (nomatch h)⟩⟩

/-- The bits of a byte, least significant first. -/
def bitsOf (b : Byte) : List Bool := [b.getLsbD 0, b.getLsbD 1, b.getLsbD 2, b.getLsbD 3, b.getLsbD 4, b.getLsbD 5, b.getLsbD 6, b.getLsbD 7]

/-- The scrambled bits of a link frame, as the air carries them. -/
def air (f : Frame) (l : Bytes) : List Bool :=
  List.zipWith (fun x y => x != y) (l.flatMap bitsOf) (scrambler (8 * l.length) (scramblerStart f.seed))

theorem scrambler_length : ∀ n x, (scrambler n x).length = n
  | 0, _ => rfl
  | n + 1, x => by simp [scrambler, scrambler_length n]

theorem unscramble : ∀ d s : List Bool, d.length = s.length →
    List.zipWith (fun x y => x != y) (List.zipWith (fun x y => x != y) d s) s = d
  | [], [], _ => rfl
  | x :: d, y :: s, h => by
    have e : ((x != y) != y) = x := by cases x <;> cases y <;> rfl
    simp only [List.zipWith_cons_cons, e, unscramble d s (Nat.succ.inj h)]

theorem byte_of_bits : ∀ b : Byte,
    BitVec.ofNat 8 (((bitsOf b).zipIdx.map fun x => if x.1 then 2 ^ x.2 else 0).sum) = b := by decide +kernel

theorem bytes_of_bits : ∀ l : Bytes, bytesOfBits l.length (l.flatMap bitsOf) = l
  | [] => rfl
  | b :: l => by
    show BitVec.ofNat 8 (((bitsOf b).zipIdx.map fun x => if x.1 then 2 ^ x.2 else 0).sum) :: bytesOfBits l.length (l.flatMap bitsOf) = _
    rw [byte_of_bits, bytes_of_bits l]

theorem bits_length : ∀ l : Bytes, (l.flatMap bitsOf).length = 8 * l.length
  | [] => rfl
  | b :: l => by simp [bits_length l, bitsOf]; omega

/-- What the air carries is what the receiver reads. -/
theorem linkBytes_air (f : Frame) (l : Bytes) (h : f.nsym * modeBits f.mode = 8 * l.length) : linkBytes f (air f l) = l := by
  have a : (air f l).length = 8 * l.length := by
    rw [air, List.length_zipWith, bits_length, scrambler_length, Nat.min_self]
  have d : 8 * l.length / 8 = l.length := by omega
  have e : (air f l).take (8 * l.length) = air f l := List.take_of_length_le (by omega)
  simp only [linkBytes, h, a, d, e, Nat.sub_self, List.replicate_zero, List.append_nil]
  rw [air, unscramble _ _ (by rw [bits_length, scrambler_length]), bytes_of_bits]

/-- A link frame: property 7, mast 3, sequence 4, car tag 5, then index, last and data, with its CRC. -/
def linkFrame (idx last : Nat) (data : Bytes) : Bytes :=
  let l := leBytes 4 7 ++ leBytes 2 3 ++ leBytes 2 4 ++ leBytes 2 5 ++ leBytes 2 (data.length + 1024 * idx + 8192 * last) ++ data
  l ++ leBytes 4 (crc32 l).toNat

theorem ofLe_leBytes : ∀ n v, ofLe (leBytes n v) = v % 256 ^ n
  | 0, v => by simp [leBytes, ofLe, Nat.mod_one]
  | n + 1, v => by
    rw [leBytes, ofLe, ofLe_leBytes n, Nat.pow_succ', Nat.mod_mul, BitVec.toNat_ofNat]

/-- A link frame with room for it is good. -/
theorem linkFrame_good {f : Frame} {idx last : Nat} {data pad : Bytes} (h1 : 1 ≤ data.length) (h2 : data.length ≤ 512) (h3 : idx ≤ last)
    (h4 : last < 8) (h5 : 8 * (16 + data.length) ≤ f.nsym * modeBits f.mode) :
    let l := linkFrame idx last data ++ pad
    frameGood f l = true ∧ fragIdx l = idx ∧ fragLast l = last ∧ fragLen l = data.length ∧ sub l 12 data.length = data := by
  intro l
  let w := leBytes 4 7 ++ leBytes 2 3 ++ leBytes 2 4 ++ leBytes 2 5 ++ leBytes 2 (data.length + 1024 * idx + 8192 * last) ++ data
  have hw : l = w ++ (leBytes 4 (crc32 w).toNat ++ pad) := List.append_assoc ..
  have len : w.length = 12 + data.length := by simp [w, leBytes]; omega
  have word : leField l 10 2 = data.length + 1024 * idx + 8192 * last := by
    show ofLe (leBytes 2 (data.length + 1024 * idx + 8192 * last)) = _
    rw [ofLe_leBytes]
    omega
  have n : fragLen l = data.length := by simp only [fragLen, word]; omega
  have i : fragIdx l = idx := by simp only [fragIdx, word]; omega
  have k : fragLast l = last := by simp only [fragLast, word]; omega
  have t : l.take (12 + data.length) = w := by rw [hw, ← len, List.take_left]
  have c : leField l (12 + data.length) 4 = (crc32 w).toNat := by
    rw [leField, sub, hw, ← len, List.drop_left]
    show ofLe (leBytes 4 (crc32 w).toNat) = _
    rw [ofLe_leBytes]
    exact Nat.mod_eq_of_lt (crc32 w).isLt
  have s : sub l 12 data.length = data := by
    have e : l.drop 12 = data ++ (leBytes 4 (crc32 w).toNat ++ pad) := List.append_assoc ..
    rw [sub, e, List.take_left]
  refine ⟨?_, i, k, n, s⟩
  simp only [frameGood, n, i, k, t, c, decide_true, Bool.and_true, decide_eq_true_eq]
  exact ⟨h1, h2, h5, h3⟩

/-- A car of property 7 with sequence 9, signed for key `idPk`. -/
def carOf (typ : Byte) (payload : Bytes) : Bytes :=
  [typ, 1] ++ leBytes 2 0 ++ leBytes 4 7 ++ leBytes 2 0 ++ [0, 0] ++ leBytes 2 0xFFFF ++ leBytes 2 payload.length ++ leBytes 4 9 ++ zeros 4
    ++ [0xFF, 0xFF, 0xFF, 0xFF] ++ zeros 4 ++ payload ++ idPk ++ idSig

/-- A NOTICE, and a REVOKE_DELTA that adds one ID. -/
def aCar : Bytes := carOf 7 (zeros 4)
def aDelta : Bytes := carOf 4 [1, 0, 0, 0, 5, 0, 0, 0, 0, 0]

/-- FIELD, property 7, the datacast key's hash in its cell. -/
def atMast (s : State) : State :=
  s.onNv fun n => { n with spore := [{ cell := 0, value := [2], left := 1 }, { cell := 1, value := [7, 0, 0, 0], left := 3 }
                                    , { cell := 3, value := sha256 idPk, left := 31 }] }

theorem sigs_ok {c : Bytes} (a : carDcKey c = idPk) (b : carDcSig c = idSig) (d : carOwnerSig c = false) : carSigsOk c = true := by
  simp only [carSigsOk, a, b, d, idSig_verifies, Bool.not_false, Bool.true_or, Bool.and_self]

theorem aCar_sigs : carSigsOk aCar = true := sigs_ok (by decide) (by decide) (by decide)
theorem aDelta_sigs : carSigsOk aDelta = true := sigs_ok (by decide) (by decide) (by decide)

theorem aCar_passes : carCheck (atMast up) aCar = none := by decide +kernel

/-- The last of two fragments of `aCar`, in mode 0 with 18 symbols. -/
def lastFrag : Frame := frameOf 0 18
def lastLink : Bytes := linkFrame 1 1 (aCar.drop 100) ++ zeros 6
def firstPart : Partial := { mast := 3, tag := 5, last := 1, frags := [(0, aCar.take 100)], ref := Instant.zero }

/-- The first of two fragments, in mode 3 with 30 symbols, and a short first fragment, in mode 0 with 7. -/
def firstFrame : Frame := frameOf 3 30
def firstLink : Bytes := linkFrame 0 1 (zeros 512) ++ zeros 12
def shortLink : Bytes := linkFrame 0 2 [1] ++ zeros 4

def receiving (f : Frame) (ps : List Partial) : State := (listening openWin (some f) (atMast up)).onCar fun c => { c with partials := ps }

theorem witness_FramesBecomeCars :
    (∃ s : State, s.rx.mode = .datacast ∧ s.rx.frame = none ∧ s.rx.window = some openWin ∧ openWin.opened = true ∧ s.boot.loader = false
        ∧ gateOpen s 1 = true ∧ gateOpen s 3 = true ∧ trainingBlanked s = false ∧ headerBlanked s = false
        ∧ headerGood 0x790004 = true ∧ headerGood 0 = false)
    ∧ (∃ s : State, s.rx.mode = .datacast ∧ s.rx.frame = none ∧ s.rx.window = some openWin ∧ s.boot.loader = false
        ∧ gateOpen s 1 = true ∧ gateOpen s 3 = true ∧ trainingBlanked s = true)
    ∧ (∃ s : State, s.rx.frame = some lastFrag ∧ s.rx.window = some openWin ∧ openWin.ending = false ∧ s.boot.loader = false
        ∧ linkBytes lastFrag (air lastFrag lastLink) = lastLink ∧ frameGood lastFrag lastLink = true ∧ cellWritten s 1 = true
        ∧ leField lastLink 0 4 = propertyId s ∧ leField lastLink 0 4 ≠ propertyId up ∧ (heldOff s).getLsbD 4 = false
        ∧ s.car.partials = [firstPart] ∧ firstPart.mast = BitVec.ofNat 16 (leField lastLink 4 2)
        ∧ firstPart.tag = BitVec.ofNat 16 (leField lastLink 8 2) ∧ fragIdx lastLink = 1 ∧ fragLast lastLink = 1
        ∧ carCheck s (aCar.take 100 ++ sub lastLink 12 (fragLen lastLink)) = none ∧ s.car.queue = [] ∧ s.keep.hash.cur = none)
    ∧ frameGood lastFrag (linkBytes lastFrag []) = false
    ∧ (linkBytes firstFrame (air firstFrame firstLink) = firstLink ∧ frameGood firstFrame firstLink = true ∧ fragIdx firstLink = 0
        ∧ fragLast firstLink = 1 ∧ fragLen firstLink = 512)
    ∧ (linkBytes aFrame (air aFrame shortLink) = shortLink ∧ frameGood aFrame shortLink = true ∧ firstPart.last ≠ fragLast shortLink
        ∧ fragIdx shortLink ≠ fragLast shortLink ∧ fragLen shortLink ≠ 512)
    ∧ Serves op_dcStatus Needs.none (one []) up1 ∧ Serves op_dcCounters Needs.none (one []) up1
    ∧ Serves op_dcSubscribe Needs.none (one [1, 0]) up1 ∧ Serves op_dcSubscribe Needs.none (one [0xFE, 7]) up1 := by
  have g := linkFrame_good (f := firstFrame) (idx := 0) (last := 1) (data := zeros 512) (pad := zeros 12)
    (by decide +kernel) (by decide +kernel) (by decide) (by decide) (by decide +kernel)
  exact
    ⟨⟨listening openWin none (tuned up), by decide +kernel⟩
    , ⟨{ listening openWin none (tuned up) with rx := { (listening openWin none (tuned up)).rx with blanks := [(950, 950)] }
                                                ao := { up.ao with rtc := 1000 } }, by decide +kernel⟩
    , ⟨receiving lastFrag [firstPart], rfl, rfl, rfl, rfl, linkBytes_air _ _ (by decide +kernel), by decide +kernel⟩, by decide +kernel
    , ⟨linkBytes_air _ _ (by decide +kernel), g.1, g.2.1, g.2.2.1, g.2.2.2.1.trans List.length_replicate⟩
    , ⟨linkBytes_air _ _ (by decide +kernel), by decide +kernel⟩
    , serves_of (by decide), serves_of (by decide), serves_of (by decide), serves_of (by decide)⟩

/-- A car is at the head of the queue and the engine runs it. -/
def verifying (c : Bytes) (s : State) : State :=
  { s with keep := { s.keep with hash := { cur := some .car, queue := [] } }
           car := { s.car with queue := [{ bytes := c, mast := 3, ref := Instant.zero, cmd := some (0, 5) }] } }

def lastSeen (seq : Nat) (hash : Bytes) : State :=
  (atMast up).onNv fun n => { n with seqs := [{ typ := 7, page := 0, seq := seq, hash := hash }] }

/-- An IMAGE chunk, and a type whose stored sequence is spent. -/
def aChunk : Bytes := carOf 9 (zeros 12)
theorem aChunk_sigs : carSigsOk aChunk = true := sigs_ok (by decide) (by decide) (by decide)
def spentImages : State := (atMast up).onNv fun n => { n with seqs := [{ typ := 9, page := 0, seq := 0xFFFFFFFF, hash := [1] }] }

/-- A learned window for NOTICE cars. -/
def noticeWin : Window := { freshWindow 0x4007 1 0x80 none false none with opened := true }

/-- The revocation set holds as many IDs as it can. -/
def fullSet (ids : List Nat) : State := (atMast up).onNv fun n => { n with deltaSeq := 8, revoked := ids }

theorem fullSet_refuses {ids : List Nat} (c : ids.contains 5 = false) (l : 524288 ≤ ids.length) :
    (addIds [5] (verifying aDelta (fullSet ids))).2 = false := by
  have c' : (verifying aDelta (fullSet ids)).nv.revoked.contains 5 = false := c
  have l' : 524288 ≤ (verifying aDelta (fullSet ids)).nv.revoked.length := l
  simp only [addIds, c', Bool.false_eq_true, if_false, if_pos l']

theorem no_five : ∀ n, (List.replicate n 7).contains 5 = false
  | 0 => rfl
  | n + 1 => no_five n

theorem full_length (n : Nat) : n ≤ (List.replicate n 7).length := Nat.le_of_eq List.length_replicate.symm

def deltaAt (seq : Nat) (behind : Bool) : State := (atMast up).onNv fun n => { n with deltaSeq := seq, behind := behind }

theorem witness_CarsAreCheckedVerifiedAndApplied :
    (Serves op_dcInject Needs.none (own [1, 0, 5, 0, 7]) up ∧ up.cmd.inject = none)
    ∧ (∃ s : State, Serves op_dcInject Needs.none (own [2, 0, 5, 0, 7]) s ∧ s.cmd.inject = some ([1], 5))
    ∧ (Serves op_dcInject Needs.none (own [0, 0, 5, 0, 7]) up ∧ ∃ s : State, Serves op_dcInject Needs.none (own [4, 0, 5, 0, 7]) s
        ∧ s.cmd.inject = some ([1, 2, 3, 4], 5) ∧ carCheck s [1, 2, 3, 4, 7] ≠ none)
    ∧ (∃ s : State, Serves op_dcInject Needs.none (own (leBytes 2 100 ++ leBytes 2 132 ++ aCar.drop 100)) s
        ∧ s.cmd.inject = some (aCar.take 100, 132) ∧ carCheck s (aCar.take 100 ++ aCar.drop 100) = none ∧ s.car.queue = []
        ∧ s.keep.hash.cur = none)
    ∧ (∀ c s, (verifying c s).phase = s.phase ∧ (verifying c s).boot.loader = s.boot.loader ∧ (verifying c s).keep.held = s.keep.held
        ∧ (verifying c s).keep.hash.cur = some .car ∧ (verifying c s).car.queue = { bytes := c, mast := 3, ref := Instant.zero, cmd := some (0, 5) } :: []
        ∧ (s.rx.window = none → WindowStays (verifying c s)))
    ∧ carSigsOk [] = false ∧ carSigsOk aCar = true ∧ carSigsOk aDelta = true ∧ carOrder (verifying aCar (lastSeen 10 [])) true aCar = .duplicate
    ∧ carOrder (verifying aCar (lastSeen 9 [1])) true aCar = .rival ∧ carOrder (verifying aDelta (deltaAt 0 true)) true aDelta = .frozen
    ∧ (carOrder (verifying aCar up) true aCar = .ok ∧ carTyp aCar = 7 ∧ (∀ b, takesCar (verifying aCar up) aCar b = false)
        ∧ LogReady (verifying aCar up))
    ∧ (carOrder (verifying aDelta (deltaAt 7 false)) true aDelta = .ok ∧ carTyp aDelta = 4 ∧ 7 + 2 ≤ carSeq aDelta)
    ∧ (carOrder (verifying aDelta (deltaAt 8 false)) true aDelta = .ok ∧ carSeq aDelta < 8 + 2 ∧ leField (carPayload aDelta) 0 2 = 1)
    ∧ (carSigsOk aChunk = true ∧ carOrder (verifying aChunk spentImages) true aChunk = .frozen
        ∧ storedSeq (verifying aChunk spentImages) (carTyp aChunk) (carPage aChunk) = 0xFFFFFFFF
        ∧ (verifying aChunk spentImages).car.frozenTold.getLsbD (carTyp aChunk) = false)
    ∧ (idsOf (leField (carPayload aDelta) 0 2) ((carPayload aDelta).drop 4) = [5] 
        ∧ ∃ ids, (addIds [5] (verifying aDelta (fullSet ids))).2 = false ∧ carSeq aDelta < (verifying aDelta (fullSet ids)).nv.deltaSeq + 2)
    ∧ (∃ b, placeOf up 5 = some (some b))
    ∧ (∃ s : State, s.phase = .running ∧ s.boot.loader = false ∧ s.keep.held = false ∧ s.keep.hash.cur = some .car
        ∧ (∃ q, s.car.queue = [q] ∧ q.bytes = aCar) ∧ carSigsOk aCar = true ∧ carOrder s true aCar = .ok ∧ carTyp aCar = 7
        ∧ s.rx.window = some noticeWin ∧ noticeWin.cmd = none ∧ noticeWin.opened = true ∧ s.rx.frame = none ∧ s.rx.listens = []
        ∧ noticeWin.types ≠ 0 ∧ noticeWin.types &&& ~~~ (noticeWin.applied ||| 0x80) = 0)
    ∧ ∃ s : State, s.phase = .running ∧ s.boot.loader = false
        ∧ s.car.snap = some { seq := 1, deltaSeq := 1, count := 1, held := [], seen := [], allPlaced := true, sweeping := true } :=
  ⟨⟨serves_of (by decide), rfl⟩, ⟨up.onCmd fun c => { c with inject := some ([1], 5) }, serves_of (by decide), rfl⟩
  , ⟨serves_of (by decide), up.onCmd fun c => { c with inject := some ([1, 2, 3, 4], 5) }, serves_of (by decide), rfl, by decide⟩
  , ⟨(atMast up).onCmd fun c => { c with inject := some (aCar.take 100, 132) }, serves_of (by decide), rfl, by decide +kernel, rfl, rfl⟩
  , fun _ _ => ⟨rfl, rfl, rfl, rfl, rfl, Or.inl⟩, by decide, aCar_sigs, aDelta_sigs, by decide, by decide +kernel, by decide
  , ⟨by decide, by decide, by decide, logReady (by decide)⟩, by decide, by decide
  , ⟨aChunk_sigs, by decide +kernel, by decide, by decide⟩, ⟨by decide, _, fullSet_refuses (no_five 524288) (full_length 524288), (by decide : carSeq aDelta < 10)⟩
  , ⟨if standing up (some (bucketOf up 5 false)) ≤ standing up (some (bucketOf up 5 true)) then bucketOf up 5 false else bucketOf up 5 true, rfl⟩
  , ⟨verifying aCar (listening noticeWin none (atMast up)), rfl, rfl, rfl, rfl, ⟨_, rfl, rfl⟩, aCar_sigs, by decide, by decide, by decide⟩
  , ⟨up.onCar fun c => { c with
      snap := some { seq := 1, deltaSeq := 1, count := 1, held := [], seen := [], allPlaced := true, sweeping := true } }, rfl, rfl, rfl⟩⟩

/-- RFC 3394, section 4.6: 256 bits of key data wrapped with a 256-bit key. -/
def wrapped46 : Bytes :=
  [0x28, 0xC9, 0xF4, 0x04, 0xC4, 0xB8, 0x10, 0xF4, 0xCB, 0xCC, 0xB3, 0x5C, 0xFB, 0x87, 0xF8, 0x26, 0x3F, 0x57, 0x86, 0xE2, 0xD8, 0x0E, 0xD3, 0x26
  , 0xCB, 0xC7, 0xF0, 0xE7, 0x1A, 0x99, 0xF4, 0x3B, 0xFB, 0x98, 0x8B, 0x9B, 0x7A, 0x02, 0xDD, 0x21]

theorem test_key_unwrap_rfc3394 : keyUnwrap (ramp 32) wrapped46
    = some ([0x00, 0x11, 0x22, 0x33, 0x44, 0x55, 0x66, 0x77, 0x88, 0x99, 0xAA, 0xBB, 0xCC, 0xDD, 0xEE, 0xFF] ++ ramp 16) := by decide +kernel

/-- An EPOCH car for lock group 1 at key epoch 5. -/
def anEpoch : Bytes := carOf 3 ([0, 1, 0, 0, 1, 0, 5, 0] ++ wrapped46)

/-- A slot write of that car is held back; slot 2 stands at an epoch, or is empty. -/
def heldBack (epoch : Half) : State :=
  let s := verifying anEpoch (withKey 1 .wrap256 (ramp 32) (atMast up))
  { s with
    nv := { s.nv with
      spore := s.nv.spore ++ [{ cell := 4, value := [1, 0], left := 15 }]
      keys := if epoch = 0 then s.nv.keys
        else s.nv.keys.set 2 { typ := .epoch256, key := zeros 32, gen := 1, epoch := epoch, fromCar := true } }
    keep := { s.keep with held := true } }

theorem witness_HeldSlotWriteEndsAsItsCar (epoch : Half) (h : epoch = 0 ∨ epoch = 4) :
    ∃ (q : QCar) (e : Nat × Bytes) (key : Bytes) (s : State), s.phase = .running ∧ s.boot.loader = false ∧ s.keep.held = true
      ∧ s.keep.hash = { cur := some .car, queue := [] } ∧ s.car.queue = [q] ∧ s.rx.window = none ∧ EngineFree .aes s
      ∧ carSigsOk q.bytes = true ∧ carOrder s true q.bytes = .ok ∧ carTyp q.bytes = 3 ∧ epochEntry s (carPayload q.bytes) = some e
      ∧ ((keySlot s 2).typ = .empty ∨ (keySlot s 2).epoch.toNat < e.1) ∧ (keySlot s 1).typ = .wrap256
      ∧ keyUnwrap (keySlot s 1).key e.2 = some key := by
  rcases h with rfl | rfl
  · exact ⟨_, (5, wrapped46), _, heldBack 0, rfl, rfl, rfl, rfl, rfl, rfl, rfl, sigs_ok (by decide) (by decide) (by decide), by decide, by decide
      , by decide, by decide, by decide, test_key_unwrap_rfc3394⟩
  · exact ⟨_, (5, wrapped46), _, heldBack 4, rfl, rfl, rfl, rfl, rfl, rfl, rfl, sigs_ok (by decide) (by decide) (by decide), by decide, by decide
      , by decide, by decide, by decide, test_key_unwrap_rfc3394⟩

/-! ### Witnesses: FM and RDS -/

def aHold : FmHold := { booth := 1, freq := 9800, flags := 0x40 }

/-- Booth 1 holds FM and listens; three segments have a usable entry. -/
def onAir : State := { up1 with
  nv := { up1.nv with calTab := [anEntry (fmKey 9800), anEntry (fmKey 9900), anEntry (fmKey 6400)] }
  rx := { up1.rx with mode := .fm, inputV := true, chan := 9800, lock := true }
  fm := { up1.fm with hold := some aHold } }

/-- The decoder is synchronised, its PI confirmed, with one alternative frequency; booth 1 takes every group raw. -/
def inSync : State := (onAir.onFm fun f => { f with
  af := [9900], rds := { f.rds with sync := true, piSeen := { last := some (0x1234, false), conf := some (0x1234, false) } } }).onBooth 1
    fun x => { x with rdsMask := 0xFFFF }

def good (v : Half) : RdsBlock := { data := v, status := .good, alt := false, offE := false }

/-- A group of type 5A of the programme 0x1234, with the check words of IEC 62106 (log 47), and one whose block A nothing explains. -/
def aRaw : RawGroup := { ecc := [], a := 0x48D06A, b := 0x1400074, c := 0x168, d := 0x1B4, ageUs := 0 }
def badRaw : RawGroup := { aRaw with a := 0x48D06A ^^^ 0x2222222 }

/-- What the decoder makes of it. -/
def aGroup : RdsGroup := { a := good 0x1234, b := good 0x5000, c := good 0, d := good 0, ageUs := 0 }

theorem aRaw_decodes {s : State} (h : s.rx.blanks = []) (k : rbdsOn s = false) : decodeGroup s aRaw = aGroup := by
  have n : ∀ lo hi, blankedIn s lo hi = false := fun lo hi => by simp [blankedIn, h]
  have e : ∀ i, blankBlock s aRaw.ageUs i = id := fun i => by funext b; simp [blankBlock, n]
  simp only [decodeGroup, e, k, id]
  decide +kernel

def aTune (failed : Bool) : FmTune := { booth := 1, tag := 9, calFailed := failed, prev := 9800 }
def aScan : FmScan := { booth := 1, tag := 9, start := 6400, stop := 6400, step := 5, thr := 0, prev := none }

theorem witness_FmIsHeldByOneBooth :
    (Serves op_fmTune (needsFm false up) (own [0xFF, 0x18, 0, 0]) up ∧ ¬ 6400 ≤ 0x18FF)
    ∧ (Serves op_fmTune (needsFm true onAir) (own [0x00, 0x19, 0x41, 0]) onAir ∧ 6400 ≤ 0x1900 ∧ onAir.fm.hold = some aHold ∧ aHold.booth ≠ 0)
    ∧ (Serves op_fmTune (needsFm true (tuned up)) (own [0x30, 0x2A, 0x41, 0]) (tuned up) ∧ 0x2A30 = 10800
        ∧ ((tuned up).fm.tune = none ∧ (tuned up).fm.scan = none ∧ (tuned up).fm.waiting = [] ∧ (tuned up).fm.afTry = none)
        ∧ (tuned up).fm.hold = none ∧ fmReady (tuned up) = true ∧ usable (tuned up) (fmKey 10800) = true)
    ∧ (∀ failed, ∃ s : State, s.fm.tune = some (aTune failed) ∧ s.fm.waiting = [] ∧ s.rx.mode = .fm)
    ∧ (Serves op_fmScan (needsFm false up) (own [0, 0x19, 0x30, 0x2A, 7, 0]) up ∧ ¬ (7 = 5 ∨ 7 = 10 ∨ 7 = 20))
    ∧ (Serves op_fmScan (needsFm false onAir) (own [0, 0x19, 0x30, 0x2A, 20, 0]) onAir ∧ (10800 - 6400) % 20 = 0)
    ∧ (Serves op_fmScan (needsFm false up) (one [0, 0x19, 0x30, 0x2A, 5, 0]) up1 ∧ up1.fm.hold = none ∧ fmReady up1 = true)
    ∧ (∃ s : State, s.fm.scan = some aScan ∧ s.fm.hold ≠ none ∧ s.fm.waiting = [] ∧ lifeCycle s ≠ .retired ∧ s.rx.mode = .fm
        ∧ scanSteps aScan = 1 ∧ usable s (fmKey (aScan.start + 0 * aScan.step)) = true)
    ∧ (Serves op_fmStop Needs.none (one []) up1 ∧ Serves op_fmStop Needs.none (own []) onAir ∧ Serves op_fmStop Needs.none (one []) onAir
        ∧ ∃ s : State, Serves op_fmStop Needs.none { own [] with src := { booth := 2, path := .host } } s ∧ s.fm.hold = some aHold)
    ∧ (inSync.fm.hold = some aHold ∧ inSync.fm.rds.pi = some 0x1234 ∧ checkDue inSync = true
        ∧ (∀ f ∈ afCandidates aHold inSync, usable inSync (fmKey f) = true)
        ∧ bestReading ((afCandidates aHold inSync).zip [16]) = some (9900, 16) ∧ bestReading ((afCandidates aHold inSync).zip []) = none)
    ∧ (∃ s : State, s.fm.hold = some aHold ∧ s.fm.rds.pi = some 0x1234 ∧ checkDue s = true ∧ afCandidates aHold s = [])
    ∧ ∀ n, ∃ s : State, s.fm.hold = some aHold ∧ s.fm.afTry = some (9700, 0x1234, n) ∧ s.boot.loader = false :=
  ⟨⟨serves_of (by decide), by decide⟩, ⟨serves_of (by decide), by decide⟩, ⟨serves_of (by decide), by decide⟩
  , fun failed => ⟨onAir.onFm fun f => { f with tune := some (aTune failed) }, rfl, rfl, rfl⟩
  , ⟨serves_of (by decide), by decide⟩, ⟨serves_of (by decide), by decide⟩, ⟨serves_of (by decide), by decide⟩
  , ⟨onAir.onFm fun f => { f with scan := some aScan }, by decide⟩
  , ⟨serves_of (by decide), serves_of (by decide), serves_of (by decide)
    , onAir.onBooth 2 fun x => { x with mode := .enabled, depth := 1 }, serves_of (by decide), rfl⟩
  , by decide, ⟨inSync.onFm fun f => { f with af := [9800] }, by decide⟩, fun n => ⟨onAir.onFm fun f => { f with afTry := some (9700, 0x1234, n) }, rfl, rfl, rfl⟩⟩

/-- A command of booth 0 under tag 5 runs, in a state. -/
def runningCmd (s : State) : State := { s with cmd := { s.cmd with svc := [{ booth := 0, tag := 5, opcode := 0x2D }] } }

def stoppableState : Stoppable → State
  | .scan => runningCmd (onAir.onFm fun f => { f with scan := some { aScan with booth := 0, tag := 5 } })
  | .tune => runningCmd (onAir.onFm fun f => { f with tune := some { aTune false with booth := 0, tag := 5 } })
  | .listen => runningCmd (listening openWin none up)
  | .routine => runningCmd (up.onJug fun j => { j with run := some { aRun 0 with tag := 5 } })
  | .transfer => runningCmd (pbus.onPb fun p => { p with xfer := some { xfer false 0 with booth := 0, tag := 5 } })

theorem witness_CancelStopsARunningOperation (k : Stoppable) :
    Serves op_cancel Needs.none (own [5]) (stoppableState k)
      ∧ ((stoppableState k).booth 0).replies.any (fun r => !r.refusal && r.tag == 5) = false ∧ tagOut (stoppableState k) 0 5 = true
      ∧ isWaiting (stoppableState k) 0 5 = false ∧ stoppable (stoppableState k) 0 5 = some k ∧ (stoppableState k).fm.waiting = []
      ∧ (stoppableState k).rx.listens = [] ∧ (stoppableState k).pb.queue = [] := by
  cases k <;> exact ⟨serves_of (by decide), by decide⟩

/-- A level-1 entry of a booth for virtual page 16·n, and the first entry of the table it names, at SRAM page 0x40. -/
def tables (l1 : Nat) : Memory :=
  [(l1, 0x01), (l1 + 1, 0x04), (l1 + 2, 0x07), (l1 + 7, 0x80), (0x70400, 0x03), (0x70402, 0x04), (0x70407, 0x80)]

theorem witness_RdsGroupsFillRecords :
    (aRaw.ecc = [] ∧ decodeGroup onAir aRaw = aGroup ∧ decodeGroup inSync aRaw = aGroup ∧ syndrome aRaw.a = offsetWord 0
      ∧ blankedIn onAir (blockStart onAir 0 0) (blockStart onAir 0 1) = false)
    ∧ (∃ s : State, blankedIn s (blockStart s aRaw.ageUs 0) (blockStart s aRaw.ageUs 1) = true)
    ∧ (∃ s : State, s.rx.mode = .fm ∧ s.fm.hold ≠ none ∧ s.fm.scan = none ∧ s.boot.loader = false ∧ s.fm.rds.sync = true
        ∧ s.fm.rds.erased = 19 ∧ (decodeGroup s badRaw).a.status = .erased ∧ (decodeGroup s badRaw).a.offE = false)
    ∧ Serves op_rdsSubscribe Needs.none (one [0, 0, 1, 0, 0, 0, 0, 0]) up1 ∧ Serves op_rdsSubscribe Needs.none (one [0xFF, 0xFF, 0, 0, 1, 0, 0, 0]) up1
    ∧ up.rx.mode ≠ .fm
    ∧ (onAir.rx.mode = .fm ∧ onAir.fm.hold ≠ none ∧ onAir.fm.scan = none ∧ onAir.boot.loader = false ∧ onAir.fm.rds.sync = false
        ∧ onAir.fm.rds.run = 0 ∧ blockClean aGroup.a = true ∧ blockClean aGroup.b = true ∧ blockClean aGroup.c = true)
    ∧ (inSync.fm.rds.sync = true ∧ inSync.fm.afTry = none ∧ blockOk aGroup.a = true ∧ blockOk aGroup.b = true
        ∧ inSync.fm.rds.piSeen.last = some (aGroup.a.data.toNat, false))
    ∧ (∃ s : State, s.rx.mode = .fm ∧ s.fm.hold ≠ none ∧ s.fm.scan = none ∧ s.boot.loader = false ∧ s.fm.rds.sync = true
        ∧ s.fm.afTry = some (9700, 0x1234, 1))
    ∧ ∃ s : State, s.rx.mode = .fm ∧ s.fm.hold ≠ none ∧ s.fm.scan = none ∧ s.boot.loader = false ∧ s.fm.rds.sync = true ∧ s.fm.afTry = none
        ∧ s.fm.rds.erased < 19 ∧ decodeGroup s aRaw = aGroup ∧ aGroup.a.offE = false ∧ aGroup.c.offE = false ∧ aGroup.d.offE = false
        ∧ s.err.bad = [] ∧ isDecoded aGroup = false ∧ subscribers aGroup s = [1] ∧ (s.booth 1).rdsCount < 512
        ∧ walk s 1 true (0xE0000 + (s.booth 1).rdsCount * 0x80) 128 = .ok [0x40000] :=
  ⟨⟨rfl, aRaw_decodes rfl rfl, aRaw_decodes rfl rfl, by decide +kernel, by decide +kernel⟩
  , ⟨up.onRx fun r => { r with blanks := [(0, 0)] }, by decide +kernel⟩
  , ⟨inSync.onFm fun f => { f with rds := { f.rds with erased := 19 } }, by decide +kernel⟩
  , serves_of (by decide), serves_of (by decide), by decide, by decide, by decide
  , ⟨inSync.onFm fun f => { f with afTry := some (9700, 0x1234, 1) }, by decide⟩, ⟨{ inSync with mem := tables 0x700F0 }, rfl, by decide, rfl, rfl, rfl, rfl
    , by decide, aRaw_decodes rfl rfl, by decide⟩⟩

/-! ### Witnesses: time and the log, booth tables, routines -/

def anEntryOf (seq : Nat) : LogEntry :=
  { seq := seq, kind := 0x0C, flags := 0, time := 0, ms := 0, unc := 0, source := 0, body := zeros 32, link := [] }

def aCp (covered : Nat) : Checkpoint := { covered := covered, time := 0, unc := 0, chain := [], sig := [] }

/-- Two entries, checkpoints over sequences 0 and 1. -/
def logged (cps : List Checkpoint) (release : Nat) : State := atDoor.onNv fun n => { n with
  log := { n.log with entries := [anEntryOf 1, anEntryOf 0], next := 2, checkpoints := cps, release := release } }

theorem witness_TimeAndLogAreReadAndKept :
    Serves op_timeGet Needs.none (one []) up1
    ∧ (∃ s : State, timeKnown s = true ∧ s.ao.leap ≠ 0 ∧ (s.ao.leapAt + 1) * fineSec ≤ s.ao.fine)
    ∧ (timeKnown atDoor = true ∧ atDoor.ao.leap = 0)
    ∧ (aoRuns up = true ∧ up.ao.rcSource = false ∧ up.err.aValid = false ∧ alive up = true ∧ up.boot.loader = false)
    ∧ (∃ s : State, aoRuns s = true ∧ s.ao.rcSource = true) ∧ Serves op_logInfo Needs.none (one []) up1
    ∧ Serves op_logRead Needs.none (own [0, 0, 0, 0, 0, 16]) up ∧ Serves op_logRead Needs.none (own [0, 0, 0, 0, 0, 0]) up
    ∧ (Serves op_logRead Needs.none (own [2, 0, 0, 0, 0, 15]) (logged [] 0) ∧ ∀ e ∈ (logged [] 0).nv.log.entries, e.seq ≠ 2)
    ∧ (Serves op_logRead Needs.none (own [1, 0, 0, 0, 0, 15]) (logged [] 0) ∧ (∃ e ∈ (logged [] 0).nv.log.entries, e.seq = 1)
        ∧ (logged [] 0).err.bad = [])
    ∧ (Serves op_logCheckpoint Needs.none (own [1, 0, 0, 0, 0]) (logged [aCp 1, aCp 0] 0) ∧ [aCp 0, aCp 1][1]? = some (aCp 1)
        ∧ ∀ (j : Nat) (d : Checkpoint), j < 1 → [aCp 0, aCp 1][j]? = some d → d.covered < 1)
    ∧ (Serves op_logCheckpoint Needs.none (own [2, 0, 0, 0, 0]) (logged [aCp 1, aCp 0] 0)
        ∧ ∀ c ∈ (logged [aCp 1, aCp 0] 0).nv.log.checkpoints, c.covered < 2)
    ∧ (Serves op_logRelease Needs.none (own [2, 0, 0, 0, 0]) (logged [] 0) ∧ newestSeq (logged [] 0) < 2)
    ∧ (Serves op_logRelease Needs.none (own [1, 0, 0, 0, 0]) (logged [] 2) ∧ (logged [] 2).nv.log.entries ≠ [] ∧ 1 + 1 ≤ (logged [] 2).nv.log.release)
    ∧ (Serves op_logRelease Needs.none (own [1, 0, 0, 0, 0]) (logged [] 1) ∧ 1 ≤ newestSeq (logged [] 1) ∧ (logged [] 1).nv.log.release < 1 + 1
        ∧ LogReady (logged [] 1))
    ∧ (alive (logged [aCp 0] 0) = true ∧ cpAllowed (logged [aCp 0] 0) = true
        ∧ (∀ c ∈ (logged [aCp 0] 0).nv.log.checkpoints.head?, c.covered < newestSeq (logged [aCp 0] 0))
        ∧ (logged [aCp 0] 0).keep.hash.cur = none ∧ (logged [aCp 0] 0).car.queue = [])
    ∧ newestSeq (logged [aCp 1] 0) ≤ (aCp 1).covered
    ∧ ∃ s : State, alive s = true ∧ s.boot.loader = false ∧ s.keep.hash.cur = some (.checkpoint (aCp 1)) ∧ s.keep.hash.queue = [] :=
  ⟨serves_of (by decide), ⟨atDoor.onAo fun a => { a with leap := 1, leapAt := 999 }, by decide⟩, by decide, by decide
  , ⟨up.onAo fun a => { a with rcSource := true }, by decide⟩, serves_of (by decide), serves_of (by decide), serves_of (by decide)
  , ⟨serves_of (by decide), by decide⟩, ⟨serves_of (by decide), by decide⟩
  , ⟨serves_of (by decide), rfl, fun j d h e => by
      obtain rfl : j = 0 := by omega
      cases e
      decide⟩
  , ⟨serves_of (by decide), by decide⟩, ⟨serves_of (by decide), by decide⟩, ⟨serves_of (by decide), by decide⟩
  , ⟨serves_of (by decide), by decide, by decide, logReady (by decide)⟩
  , ⟨by decide, by decide, fun _ h => by cases h; decide, rfl, rfl⟩, by decide
  , ⟨up.onKeep fun k => { k with hash := { cur := some (.checkpoint (aCp 1)), queue := [] } }, by decide⟩⟩

/-- Virtual page 0 of booth 0 is SRAM page 0x40000. -/
def mapped : State := { up with mem := tables 0x70000 }

theorem mapped_page (write : Bool) : walkPage mapped 0 write 0 = .ok [0x40000] := by cases write <;> decide

theorem mapped_allPass (write : Bool) (n : Nat) (h1 : 1 ≤ n) (h2 : n ≤ 4096) : AllPass mapped 0 write 0 n := by
  intro k _ hk
  have : k = 0 := by omega
  subst this
  exact ⟨_, mapped_page write⟩

theorem witness_BoothTablesRuleTheStores :
    (mapped.err.bad = [] ∧ mapped.mem.wf = true ∧ walkPage mapped 0 true 0 = .ok [0x40000])
    ∧ Serves op_storeRead Needs.none (own [0, 0, 0, 0, 1, 4]) up ∧ Serves op_storeRead Needs.none (own [0xFF, 0xFF, 0x0F, 0, 2, 0]) up
    ∧ (Serves op_storeRead Needs.none (own [0, 0, 0, 0, 0, 4]) mapped ∧ AllPass mapped 0 false 0 1024)
    ∧ (Serves op_storeRead Needs.none (own [0xFF, 0x0F, 0, 0, 2, 0]) mapped ∧ FaultsAt mapped 0 false 0xFFF 2 1 1 1
        ∧ (mapped.booth 0).mode = .enabled)
    ∧ Serves op_storeWrite Needs.none (own [0xFF, 0xFF, 0x0F, 0, 1, 2]) up
    ∧ (Serves op_storeWrite Needs.none (own [0, 0, 0, 0, 9]) mapped ∧ AllPass mapped 0 true 0 1)
    ∧ (Serves op_storeWrite Needs.none (own ([8, 0, 0, 0] ++ ramp 24)) mapped ∧ 8 % 8 = 0 ∧ AllPass mapped 0 true 0 32)
    ∧ (Serves op_storeWrite Needs.none (own [0xFF, 0x0F, 0, 0, 1, 2]) mapped ∧ FaultsAt mapped 0 true 0xFFF 2 1 1 1)
    ∧ (Serves op_tableSet Needs.none (own [0, 1, 15, 0, 0, 0, 0, 0, 0, 0, 0, 0]) mapped ∧ (mapped.booth 0).mode ≠ .draining)
    ∧ (Serves op_tableSet Needs.none (own [0, 1, 15, 0, 0x81, 4, 7, 0, 0, 0, 0, 0]) mapped ∧ entryTarget 0 0x70481 = 0x70480
        ∧ ∀ c, c < 128 → 0x00070000 + 8 * c ≠ 0x70000 + 8 * 15 → entryAt mapped (0x00070000 + 8 * c) % 2 = 1 →
          entryTarget 0 (entryAt mapped (0x00070000 + 8 * c)) ≠ 0x70480)
    ∧ (Serves op_tableSet Needs.none (own [0, 1, 15, 0, 1, 4, 7, 0, 0, 0, 0, 0]) mapped
        ∧ ∃ c, c < 128 ∧ 0x00070000 + 8 * c ≠ 0x70000 + 8 * 15 ∧ entryAt mapped (0x00070000 + 8 * c) % 2 = 1
          ∧ entryTarget 0 (entryAt mapped (0x00070000 + 8 * c)) = entryTarget 0 0x70401)
    ∧ (Serves op_tableSet Needs.none (own [0, 1, 0, 0, 1, 0, 8, 0, 0, 0, 0, 0]) mapped ∧ 0x00080000 ≤ entryTarget 0 0x80001)
    ∧ (Serves op_tableSet Needs.none (own [0, 2, 15, 0, 3, 0, 4, 0, 0, 0, 0, 0]) mapped ∧ entryAt mapped (l1Addr 0 15) % 2 = 1
        ∧ entryTarget 0 (entryAt mapped (l1Addr 0 15)) = 0x70400)
    ∧ (Serves op_tableSet Needs.none (own [0, 2, 255, 0, 3, 0, 4, 0, 0, 0, 0, 0]) mapped ∧ entryAt mapped (l1Addr 0 255) % 2 = 0)
    ∧ Nat.land 2 0x7FFFFFFF0000007E ≠ 0 ∧ Nat.land 4 0x7FFFFFFF00000FFC ≠ 0
    ∧ Serves op_tableSet Needs.none (own [8, 1, 0, 0, 0, 0, 0, 0, 0, 0, 0, 0]) mapped := by
  have fault : ∀ w, FaultsAt mapped 0 w 0xFFF 2 1 1 1 := fun w =>
    ⟨by decide, by decide, by cases w <;> decide, fun j h1 h2 => by
      obtain rfl : j = 0 := by omega
      exact ⟨_, mapped_page w⟩⟩
  exact
    ⟨by decide, serves_of (by decide), serves_of (by decide), ⟨serves_of (by decide), mapped_allPass _ _ (by decide) (by decide)⟩
    , ⟨serves_of (by decide), fault _, by decide⟩, serves_of (by decide)
    , ⟨serves_of (by decide), mapped_allPass _ _ (by decide) (by decide)⟩
    , ⟨serves_of (by decide), rfl, mapped_allPass _ _ (by decide) (by decide)⟩, ⟨serves_of (by decide), fault _⟩
    , ⟨serves_of (by decide), by decide⟩, ⟨serves_of (by decide), by decide, by decide +kernel⟩
    , ⟨serves_of (by decide), 0, by decide⟩, ⟨serves_of (by decide), by decide⟩, ⟨serves_of (by decide), by decide⟩
    , ⟨serves_of (by decide), by decide⟩, by decide, by decide, serves_of (by decide)⟩

/-- The gate of the Juggler is open. -/
def freed (s : State) : State := s.onPwr fun p => { p with gateStat := 0 }

/-- Booth 0's routine is loaded and may run; no run. -/
def ready : State := (up.onBooth 0 fun x => { x with codeLen := 2048, rtnState := .loaded }).onJug fun j => { j with rtnCfg := 0xFF0A }

def aReq : RtnReq := { booth := 0, tag := 9, entry := 0, args := [1, 0] }

theorem witness_RoutinesAreLoadedStartedAndLimited :
    (up.err.bad = [] ∧ up.jug.code.wf = true ∧ up.jug.win.wf = true ∧ routineBusy up 0 = false)
    ∧ Serves op_rtnLoad (needsJuggler up) (own [0xFC, 7, 1, 2, 3, 4]) up ∧ Serves op_rtnLoad (needsJuggler up) (own [2, 0, 1, 2, 3, 4]) up
    ∧ Serves op_rtnLoad (needsJuggler up) (own [0, 8, 1, 2, 3, 4]) up
    ∧ Serves op_rtnRead (needsJuggler up) (own [0, 12, 0, 4]) up ∧ Serves op_rtnRead (needsJuggler up) (own [1, 12, 0, 4]) up
    ∧ Serves op_rtnRead (needsJuggler up) (own [0, 0, 1, 4]) up
    ∧ Serves op_rtnWrite (needsJuggler up) (own [0xFF, 15, 1]) up ∧ Serves op_rtnWrite (needsJuggler up) (own [0xFF, 15, 1, 2]) up
    ∧ (Serves op_rtnStart (needsRun ready) (own [0xFC, 7, 0, 0, 1, 0, 0, 0]) ready ∧ ready.jug.rtnCfg.getLsbD (8 + 0) = true
        ∧ 0x7FC < (ready.booth 0).codeLen ∧ ready.jug.run = none ∧ ready.jug.queue = [] ∧ routineBusy ready 0 = false)
    ∧ (Serves op_rtnStart (needsRun up) (own [0, 0, 0, 0]) up ∧ (up.booth 0).codeLen = 0)
    ∧ (∃ s : State, Serves op_rtnStart (needsRun s) (own [0, 0, 0, 0]) s ∧ s.jug.rtnCfg.getLsbD (8 + 0) = false)
    ∧ (∃ s : State, Serves op_rtnStart (needsRun s) (own [0, 0, 0, 0]) s ∧ routineBusy s 0 = false ∧ s.jug.run ≠ none ∧ s.jug.paused = false
        ∧ 0 < (s.booth 0).codeLen ∧ s.jug.rtnCfg.getLsbD (8 + 0) = true)
    ∧ (∃ s : State, (s.phase = .running ∨ s.phase = .holdSafe) ∧ s.pwr.battEnd = false ∧ gateOpen s 0 = true ∧ s.jug.run = none
        ∧ s.jug.queue = aReq :: [])
    ∧ gateOpen up 0 = false ∧ (∃ s : State, s.jug.run ≠ none ∧ s.rx.mode ≠ .datacast) ∧ stopNow.rx.mode = .datacast
    ∧ (∃ s : State, (s.phase = .running ∨ s.phase = .holdSafe) ∧ s.boot.loader = false ∧ s.jug.run = some (aRun 1) ∧ s.jug.paused = false)
    ∧ ∃ s : State, (s.phase = .running ∨ s.phase = .holdSafe) ∧ s.jug.run ≠ none ∧ s.jug.paused = true :=
  ⟨by decide, serves_of (by decide), serves_of (by decide), serves_of (by decide), serves_of (by decide), serves_of (by decide)
  , serves_of (by decide), serves_of (by decide), serves_of (by decide), ⟨serves_of (by decide), by decide⟩
  , ⟨serves_of (by decide), by decide⟩, ⟨up.onJug fun j => { j with rtnCfg := 0xFE0A }, serves_of (by decide), by decide⟩
  , ⟨ready.onJug fun j => { j with run := some (aRun 1) }, serves_of (by decide), by decide⟩
  , ⟨(freed up).onJug fun j => { j with queue := [aReq] }, by decide⟩, by decide, ⟨up.onJug fun j => { j with run := some (aRun 1) }, by decide⟩
  , by decide, ⟨up.onJug fun j => { j with run := some (aRun 1) }, by decide⟩
  , ⟨up.onJug fun j => { j with run := some (aRun 1), paused := true }, by decide⟩⟩

/-! ### Words of booth routines, from the fields of chapter 13 and the codes of Table 13-4 -/

theorem test_word_nop : jugDecode 0b000000_00000_00000_00000_00000000000 = some .jugNop := by decide
theorem test_word_movi : jugDecode 0b000001_10011_00000_1000000000000001 = some (.jugMovi (.v 3) 0x8001) := by decide
theorem test_word_mov : jugDecode 0b000010_00001_01010_00000_00000000000 = some (.jugMov (.r 1) (.a 2)) := by decide
theorem test_word_add : jugDecode 0b000011_00001_01001_11111_00000000000 = some (.jugAdd (.r 1) (.a 1) (.v 15)) := by decide
theorem test_word_sub : jugDecode 0b000100_00001_00010_00011_00000000000 = some (.jugSub (.r 1) (.r 2) (.r 3)) := by decide
theorem test_word_addi : jugDecode 0b000101_00001_00010_1111111111111111 = some (.jugAddi (.r 1) (.r 2) 0xFFFF) := by decide
theorem test_word_and : jugDecode 0b000110_00001_00010_00011_00000000000 = some (.jugAnd (.r 1) (.r 2) (.r 3)) := by decide
theorem test_word_or : jugDecode 0b000111_00001_00010_00011_00000000000 = some (.jugOr (.r 1) (.r 2) (.r 3)) := by decide
theorem test_word_xor : jugDecode 0b001000_00001_00010_00011_00000000000 = some (.jugXor (.r 1) (.r 2) (.r 3)) := by decide
theorem test_word_shr : jugDecode 0b001001_00001_00010_00000_000000_11111 = some (.jugShr (.r 1) (.r 2) 31) := by decide
theorem test_word_shl : jugDecode 0b001010_00001_00010_00000_000000_10000 = some (.jugShl (.r 1) (.r 2) 16) := by decide
theorem test_word_abs : jugDecode 0b001011_00001_00010_00000_00000000000 = some (.jugAbs (.r 1) (.r 2)) := by decide
theorem test_word_ld : jugDecode 0b010000_00001_01001_00000_10000000001 = some (.jugLd (.r 1) 1 0x401 []) := by decide
theorem test_word_st : jugDecode 0b010001_10000_01011_00000_11111111111 = some (.jugSt (.v 0) 3 0x7FF) := by decide
theorem test_word_ldi : jugDecode 0b010010_00001_01000_00000_000_11111111 = some (.jugLdi (.r 1) 0 0xFF) := by decide
theorem test_word_sti : jugDecode 0b010011_00001_01000_00000_000_00000010 = some (.jugSti (.r 1) 0 2) := by decide
theorem test_word_gath16 : jugDecode 0b010100_00000_01000_01001_0000000_0101 = some (.jugGath16 0 1 5) := by decide
theorem test_word_gath16r : jugDecode 0b010101_00111_01000_01001_00000000000 = some (.jugGath16r 0 1 7) := by decide
theorem test_word_clr : jugDecode 0b011000_00000_00000_00000_1_0000000000 = some (.jugClr true) := by decide
theorem test_word_mul : jugDecode 0b011001_00000_00001_10010_1_0000000000 = some (.jugMul true (.r 1) (.v 2)) := by decide
theorem test_word_mac : jugDecode 0b011010_00000_00001_10010_0_0000000000 = some (.jugMac false (.r 1) (.v 2)) := by decide
theorem test_word_msu : jugDecode 0b011011_00000_00001_10010_0_0000000000 = some (.jugMsu false (.r 1) (.v 2)) := by decide
theorem test_word_asha : jugDecode 0b011100_00000_00000_00000_1_0000_100001 = some (.jugAsha true 0x21) := by decide
theorem test_word_rnd : jugDecode 0b011101_00010_00000_00000_1_00000_01111 = some (.jugRnd (.r 2) true 15) := by decide
theorem test_word_exp : jugDecode 0b011110_00010_00000_00000_1_0000000000 = some (.jugExp 2 true) := by decide
theorem test_word_norm : jugDecode 0b011111_00010_00000_00000_0_0000000000 = some (.jugNorm 2 false) := by decide
theorem test_word_br : jugDecode 0b100000_0111_0000000000000_100000001 = some (.jugBr .s 0x101) := by decide
theorem test_word_dbnz : jugDecode 0b100001_00101_000000000000_000000011 = some (.jugDbnz 5 3) := by decide
theorem test_word_setfv : jugDecode 0b101000_0000000000000000_1_000000011 = some (.jugSetfv 3 true) := by decide
theorem test_word_getf : jugDecode 0b101001_00101_0000000000000000000_11 = some (.jugGetf 5 3) := by decide
theorem test_word_resume : jugDecode 0b101010_00000_00000_00000_00000000000 = some .jugResume := by decide
theorem test_word_end : jugDecode 0b111111_00000_01010_000000000_1000000 = some (.jugEnd 2 64) := by decide

/-- A run of booth 1 stands at a word, which is alone in the code, and the Juggler's gate is open. -/
def coded (x : Run) (w : Word) (s : State) : State :=
  ((freed s).onJug fun j => { j with code := memWrite [] (x.booth.val * 2048 + 4 * x.pc) (leBytes 4 w.toNat), run := some x }).onBooth x.booth
    fun b => { b with codeLen := 4 * x.pc + 4 }

/-- That run is at the instruction which the word encodes. -/
theorem coded_at {i : Instr} {w : Word} {x : Run} {s : State} (h : jugDecode w = some i)
    (k : s.jug.paused = false ∧ s.phase = .running ∧ s.boot.loader = false ∧ s.err.bad = []) : At i x (coded x w s) where
  run := rfl
  going := k.1
  alive := Or.inl k.2.1
  released := by show (!(0 : BitVec 9).getLsbD 0) = true; decide
  loader := k.2.2.1
  within := by simp [coded]
  word := by
    have r : memRead (memWrite [] (x.booth.val * 2048 + 4 * x.pc) (leBytes 4 w.toNat)) (x.booth.val * 2048 + 4 * x.pc) 4 = leBytes 4 w.toNat :=
      memRead_memWrite (by decide) _ (leBytes 4 w.toNat)
    show jugDecode (BitVec.ofNat 32 (ofLe (memRead (memWrite [] (x.booth.val * 2048 + 4 * x.pc) (leBytes 4 w.toNat))
      (x.booth.val * 2048 + 4 * x.pc) 4))) = some i
    rw [r, ofLe_leBytes]
    have z : w.toNat % 256 ^ 4 = w.toNat := Nat.mod_eq_of_lt (by have := w.isLt; omega)
    rw [z]
    simpa using h
  sound := k.2.2.2

/-- A run of booth 1 with a value in every a-register, in both accumulators, and in r0. -/
def runWith (a : Half) (acc : Int) (r0 : Half) : Run :=
  { aRun 1 with a := Vector.replicate 4 a, acc0 := acc, acc1 := acc, r := (Vector.replicate 8 0).set 0 r0 }

/-- That run stands at a word. -/
def atWord (a : Half) (acc : Int) (w : Word) : State := coded (runWith a acc 0) w up

/-- It is at an instruction, for the word that encodes it. -/
def Stands (i : Instr) (a : Half) (acc : Int) : Prop := ∃ w, At i (runWith a acc 0) (atWord a acc w)

theorem at_word {i : Instr} {w : Word} (h : jugDecode w = some i) (a : Half) (acc : Int) : Stands i a acc :=
  ⟨w, coded_at h ⟨rfl, rfl, rfl, rfl⟩⟩

theorem witness_RoutineWordsSpellTheirInstructions :
    (jugEncode (.jugEnd 3 64) = some 0b111111_00000_01011_000000000_1000000 ∧ (Instr.jugEnd 3 64).wf = true)
    ∧ (wfield 0b000011_00001_01100_00000_00000000000 26 6 = 3 ∧ wfield 0b000011_00001_01100_00000_00000000000 16 5 = 12)
    ∧ (wfield 0b001000_00001_01000_01111_00000000000 26 6 = 8 ∧ wfield 0b001000_00001_01000_01111_00000000000 11 5 = 15)
    ∧ (wfield 0b000011_00001_01000_00000_00000000001 26 6 = 3 ∧ wfield 0b000011_00001_01000_00000_00000000001 0 11 ≠ 0)
    ∧ (wfield 0b100000_1000_0000000000000_000000000 26 6 = 0x20 ∧ 8 ≤ wfield 0b100000_1000_0000000000000_000000000 22 4)
    ∧ (wfield 0b111111_00000_01000_000000000_0000001 0 7 % 2 = 1 ∧ 64 < wfield 0b111111_00000_01000_000000000_1000010 0 7)
    ∧ wfield 0b111110_00000_00000_00000_00000000000 26 6 = 0x3E := by decide

theorem witness_RoutineArithmeticSaturatesAndSetsFlags (a : Half) (acc : Int) :
    Stands .jugNop a acc ∧ Stands (.jugMovi (.v 3) 0x8001) a acc
    ∧ Stands (.jugMov (.r 1) (.a 2)) a acc ∧ Stands (.jugAdd (.r 1) (.a 1) (.v 15)) a acc
    ∧ Stands (.jugSub (.r 1) (.r 2) (.r 3)) a acc ∧ Stands (.jugAddi (.r 1) (.r 2) 0xFFFF) a acc
    ∧ Stands (.jugAnd (.r 1) (.r 2) (.r 3)) a acc ∧ Stands (.jugOr (.r 1) (.r 2) (.r 3)) a acc
    ∧ Stands (.jugXor (.r 1) (.r 2) (.r 3)) a acc ∧ Stands (.jugShr (.r 1) (.r 2) 31) a acc
    ∧ Stands (.jugShl (.r 1) (.r 2) 16) a acc ∧ Stands (.jugAbs (.r 1) (.r 2)) a acc
    ∧ Stands (.jugClr true) a acc ∧ Stands (.jugMul true (.r 1) (.v 2)) a acc
    ∧ Stands (.jugMac false (.r 1) (.v 2)) a acc ∧ Stands (.jugMsu false (.r 1) (.v 2)) a acc
    ∧ Stands (.jugAsha true 0x21) a acc ∧ Stands (.jugRnd (.r 2) true 15) a acc
    ∧ Stands (.jugExp 2 true) a acc ∧ Stands (.jugNorm 2 false) a acc
    ∧ JReg.isA (.r 1) = false ∧ JReg.isA (.v 2) = false :=
  ⟨at_word test_word_nop a acc, at_word test_word_movi a acc, at_word test_word_mov a acc, at_word test_word_add a acc
  , at_word test_word_sub a acc, at_word test_word_addi a acc, at_word test_word_and a acc, at_word test_word_or a acc
  , at_word test_word_xor a acc, at_word test_word_shr a acc, at_word test_word_shl a acc, at_word test_word_abs a acc
  , at_word test_word_clr a acc, at_word test_word_mul a acc, at_word test_word_mac a acc, at_word test_word_msu a acc
  , at_word test_word_asha a acc, at_word test_word_rnd a acc, at_word test_word_exp a acc, at_word test_word_norm a acc, rfl, rfl⟩

/-- The count e of EXP and NORM at its least and at its greatest. -/
theorem witness_exponents :
    (-(2 ^ 39) ≤ (2 : Int) ^ 38 ∧ (2 : Int) ^ 38 < 2 ^ (39 - 0) ∧ (2 : Int) ^ (38 - 0) ≤ 2 ^ 38)
    ∧ (-(2 ^ (39 - 39)) ≤ (-1 : Int) ∧ (-1 : Int) < 2 ^ (39 - 39) ∧ 39 ≤ 39) := by decide

theorem witness_RoutineLoadsStoresAndGathers :
    (∀ a, Stands (.jugLd (.r 1) 1 0x401 []) a 0 ∧ Stands (.jugSt (.v 0) 3 0x7FF) a 0
      ∧ Stands (.jugLdi (.r 1) 0 0xFF) a 0 ∧ Stands (.jugSti (.r 1) 0 2) a 0
      ∧ Stands (.jugGath16 0 1 5) a 0 ∧ Stands (.jugGath16r 0 1 7) a 0
      ∧ ∀ w, (atWord a 0 w).jug.win.wf = true)
    ∧ (0 + (0x7FF : BitVec 11).toNat < 2048 ∧ 2048 ≤ 1 + (0x7FF : BitVec 11).toNat ∧ (0x7FF : Half).toNat < 2048 ∧ 2048 ≤ (0x800 : Half).toNat)
    ∧ ((runWith 0 0 0).gatherFrom.getD (5 : BitVec 4).toNat = 5 ∧ (runWith 0 0 0).gatherFrom.getD (((runWith 0 0 0).r.get 7).toNat % 16) = 0)
    ∧ (∀ w l, 5 ≤ l → l < 16 → (0 : Half).toNat + l < 2048 ∧ (0 : Half).toNat + (window (atWord 0 0 w) (runWith 0 0 0) (0 + l)).toNat < 2048)
    ∧ 2048 ≤ (0x7FB : Half).toNat + 5 ∧ 2048 ≤ (0x800 : Half).toNat + 0
    ∧ (aRun 1).vector = none ∧ ∃ x : Run, x.vector = some 4 ∧ x.handler = false := by
  refine ⟨fun a => ⟨at_word test_word_ld a 0, at_word test_word_st a 0, at_word test_word_ldi a 0, at_word test_word_sti a 0
    , at_word test_word_gath16 a 0, at_word test_word_gath16r a 0, fun _ => rfl⟩, by decide, by decide, ?_, by decide, by decide, rfl
    , { aRun 1 with vector := some 4 }, rfl, rfl⟩
  intro w l _ h
  have z : window (atWord 0 0 w) (runWith 0 0 0) (0 + l) = 0 := rfl
  rw [z]
  exact ⟨by simp; omega, by decide⟩

theorem witness_RoutineControlBranchesTrapsAndEnds :
    (∀ a, Stands (.jugBr .s 0x101) a 0 ∧ Stands (.jugDbnz 5 3) a 0
      ∧ Stands (.jugSetfv 3 true) a 0 ∧ Stands (.jugGetf 5 3) a 0
      ∧ Stands .jugResume a 0 ∧ Stands (.jugEnd 2 64) a 0)
    ∧ (∃ s : State, At (.jugBr .always 0) (aRun 1) s ∧ 4 * 0 < (s.booth 1).codeLen)
    ∧ (∃ s : State, At (.jugBr .always 1) (aRun 1) s ∧ (s.booth 1).codeLen ≤ 4 * 1)
    ∧ (∃ s : State, At (.jugDbnz 0 0) (runWith 0 0 1) s) ∧ (runWith 0 0 1).r.get 0 = 1
    ∧ (∃ s : State, At .jugResume { aRun 1 with handler := true } s)
    ∧ ((0x7E0 : Half).toNat + (64 : BitVec 7).toNat / 2 ≤ 2048 ∧ 2048 < (0x7E1 : Half).toNat + (64 : BitVec 7).toNat / 2)
    ∧ (jugEncode .jugNop = some 0 ∧ Instr.jugNop.wf = true ∧ up.jug.run = none ∧ gateOpen up 0 = false)
    ∧ (∃ s : State, s.jug.run = some (aRun 1) ∧ s.jug.paused = false ∧ gateOpen s 0 = true ∧ (s.booth 1).codeLen ≤ 4 * (aRun 1).pc ∧ s.err.bad = [])
    ∧ (∃ s : State, s.jug.run = some (aRun 1) ∧ gateOpen s 0 = true ∧ 4 * (aRun 1).pc < (s.booth 1).codeLen ∧ s.err.bad = []
        ∧ jugDecode (BitVec.ofNat 32 (ofLe (memRead s.jug.code (1 * 2048 + 4 * (aRun 1).pc) 4))) = none)
    ∧ Instr.jugNop ≠ .jugResume := by
  refine ⟨fun a => ⟨at_word test_word_br a 0, at_word test_word_dbnz a 0, at_word test_word_setfv a 0, at_word test_word_getf a 0
      , at_word test_word_resume a 0, at_word test_word_end a 0⟩
    , ⟨coded (aRun 1) 0b100000_0000_0000000000000_000000000 up, coded_at (by decide) ⟨rfl, rfl, rfl, rfl⟩, by decide⟩
    , ⟨coded (aRun 1) 0b100000_0000_0000000000000_000000001 up, coded_at (by decide) ⟨rfl, rfl, rfl, rfl⟩, by decide⟩
    , ⟨coded (runWith 0 0 1) 0b100001_00000_000000000000_000000000 up, coded_at (by decide) ⟨rfl, rfl, rfl, rfl⟩⟩, by decide
    , ⟨coded { aRun 1 with handler := true } _ up, coded_at test_word_resume ⟨rfl, rfl, rfl, rfl⟩⟩, by decide, by decide
    , ⟨(freed up).onJug fun j => { j with run := some (aRun 1) }, by decide⟩
    , ⟨coded (aRun 1) 0xFFFFFFFF up, rfl, by decide, by decide, rfl, by decide⟩, by decide⟩

/-! ### Witnesses: images, life-cycle, start -/

/-- The image slot B is active (at reset), slot A in a state. -/
def slotA (st : SlotState) (path : Option LoadPath) (due : Bool) : State :=
  up.onNv fun n => { n with br := { n.br with stA := st, path := path, due := due, actTime := if due then 0 else 5 } }

theorem witness_ImagesAreWrittenCheckedAndActivated :
    (∀ st path due, (slotA st path due).mem.wf = true ∧ slotState (slotA st path due) (otherSlot (slotA st path due).nv.br.active) = st
        ∧ (slotA st path due).nv.br.path = path ∧ (slotA st path due).nv.br.due = due)
    ∧ (∀ st path, Serves op_imgWrite Needs.none (own ([0xFC, 0xFF, 0x0B, 0] ++ zeros 4)) (slotA st path false)
        ∧ Serves op_imgWrite Needs.none (own ([0xFE, 0, 0, 0] ++ zeros 4)) (slotA st path false)
        ∧ Serves op_imgWrite Needs.none (own ([0, 0, 0x0C, 0] ++ zeros 4)) (slotA st path false)
        ∧ Serves op_imgActivate Needs.none (own (zeros 4)) (slotA st path false))
    ∧ (786428 + 4 ≤ 786432)
    ∧ (∃ s : State, s.boot.imgCheck = some .a ∧ s.boot.loader = false)
    ∧ (Serves op_imgActivate Needs.none (own (zeros 4)) (slotA .trial none true))
    ∧ (∃ s : State, (s.phase = .running ∨ s.phase = .holdSafe) ∧ slotState s (otherSlot s.nv.br.active) = .trial ∧ s.nv.br.due = false
        ∧ s.nv.br.actTime.toNat = 0)
    ∧ (∃ s : State, (s.phase = .running ∨ s.phase = .holdSafe) ∧ slotState s (otherSlot s.nv.br.active) = .trial ∧ s.nv.br.due = false
        ∧ ¬ (s.nv.br.actTime.toNat = 0 ∨ timeKnown s = true ∧ s.nv.br.actTime.toNat ≤ devSec s))
    ∧ (Serves op_imgConfirm Needs.none (own []) up ∧ up.boot.trial = false)
    ∧ (∃ s : State, Serves op_imgConfirm Needs.none (own []) s ∧ s.boot.trial = true ∧ ofLe (memRead s.mem (slotBase s.boot.slot + 12) 4) ≤ cellNat s 6)
    ∧ (∃ s : State, Serves op_imgConfirm Needs.none (own []) s ∧ s.boot.trial = true ∧ cellNat s 6 < ofLe (memRead s.mem (slotBase s.boot.slot + 12) 4)
        ∧ cellLeft s 6 ≠ 0 ∧ lifeCycle s ≠ .retired)
    ∧ (∃ s : State, Serves op_imgConfirm Needs.none (own []) s ∧ s.boot.trial = true ∧ cellNat s 6 < ofLe (memRead s.mem (slotBase s.boot.slot + 12) 4)
        ∧ cellLeft s 6 = 0)
    ∧ Serves op_imgStatus Needs.none (one []) up1 := by
  refine ⟨?_, ?_, by decide, ⟨up.onBoot fun b => { b with imgCheck := some .a }, by decide⟩, serves_of (by decide)
    , ⟨{ slotA .trial none false with nv := { up.nv with br := { up.nv.br with stA := .trial } } }, by decide⟩, ⟨slotA .trial none false, by decide⟩
    , ⟨serves_of (by decide), by decide⟩
    , ⟨up.onBoot fun b => { b with trial := true }, serves_of (by decide), by decide⟩
    , ⟨{ up with boot := { up.boot with trial := true }, mem := [(slotBase up.boot.slot + 12, 1)] }, serves_of (by decide), by decide⟩
    , ⟨{ withCell 6 [0, 0, 0, 0] 0 up with boot := { up.boot with trial := true }, mem := [(slotBase up.boot.slot + 12, 1)] }
      , serves_of (by decide), by decide⟩, serves_of (by decide)⟩
  · intro st path due
    exact ⟨rfl, rfl, rfl, rfl⟩
  · intro st path
    refine ⟨serves_of ?_, serves_of ?_, serves_of ?_, serves_of ?_⟩ <;> ( cases st <;> rcases path with _ | _ | _ <;> decide)

/-- BLANK with cells 1 to 3 written and an image in the running slot that carries the owner's key and signature. -/
def signedImage : State := { up with
  nv := { up.nv with spore := [{ cell := 1, value := [7, 0, 0, 0], left := 3 }, { cell := 2, value := sha256 idPk, left := 7 }
                              , { cell := 3, value := zeros 32, left := 31 }] }
  mem := [(slotBase up.boot.slot + 6, 1), (slotBase up.boot.slot + 192, 1), (slotBase up.boot.slot + 288, 1)] }

theorem signedImage_ok : ownerSigOk signedImage signedImage.boot.slot = true := by
  have f : decide (slotField signedImage signedImage.boot.slot 6 2 % 2 = 1) = true := by decide
  have k : ownerKeyOf signedImage signedImage.boot.slot = idPk := by decide
  have g : slotRead signedImage signedImage.boot.slot 192 64 = idSig := by decide
  have h : ownerHash signedImage = sha256 idPk := rfl
  simp only [ownerSigOk, f, k, g, h, idSig_verifies, decide_true, Bool.and_self]

/-- The life-cycle cell at a step, with an owner key. -/
def stagedWith (h : Bytes) (n : Byte) : State :=
  (up.onNv fun x => { x with spore := [{ cell := 0, value := [n], left := 1 }, { cell := 2, value := h, left := 7 }] }).onBoot
    fun b => { b with ownerKey := some idPk }

theorem ownerKey_staged (h : Bytes) (n : Byte) (e : sha256 idPk = h) : ownerKey (stagedWith h n) = some idPk := if_pos e

abbrev staged (n : Byte) : State := stagedWith (sha256 idPk) n

theorem staged_verifies (n : Byte) (msg : Bytes) : ownerVerifies (staged n) idSig msg = true := by
  simp only [ownerVerifies, ownerKey_staged _ n rfl, idSig_verifies]

/-- The hash and curve engine is busy with a car, or runs a command's operation. -/
def busyHash (s : State) : State := s.onKeep fun k => { k with hash := { cur := some .car, queue := [] } }
def hashRuns (op : JobOp) (s : State) : State :=
  s.onKeep fun k => { k with hash := { cur := some (.cmd { booth := 0, tag := 5, op := op } [] none), queue := [] } }

theorem witness_LifeCycleMovesForwardThroughAReset :
    (EngineFree .hash signedImage ∧ EngineFree .hash up ∧ EngineFree .hash (staged 1) ∧ EngineFree .hash (staged 2))
    ∧ (Serves op_lcProvision Needs.none (own []) (busyHash up) ∧ lifeCycle (busyHash up) = .blank ∧ (busyHash up).keep.hash.cur ≠ none)
    ∧ (Serves op_lcField Needs.none (own (zeros 64)) (busyHash (staged 1)) ∧ lifeCycle (busyHash (staged 1)) = .provisioned)
    ∧ (Serves op_lcRetire Needs.none (own (zeros 64)) (busyHash (staged 2)) ∧ lifeCycle (busyHash (staged 2)) = .field)
    ∧ ((hashRuns .provision signedImage).keep.hash.cur = some (.cmd { booth := 0, tag := 5, op := .provision } [] none)
        ∧ lifeCycle (hashRuns .provision signedImage) = .blank ∧ cellWritten (hashRuns .provision signedImage) 1 = true
        ∧ ownerSigOk (hashRuns .provision signedImage) (hashRuns .provision signedImage).boot.slot = true)
    ∧ ((hashRuns .provision up).keep.hash.cur = some (.cmd { booth := 0, tag := 5, op := .provision } [] none)
        ∧ cellWritten (hashRuns .provision up) 1 = false)
    ∧ (∀ (target : LifeCycle) (n : Byte) (m : Byte), ∃ s : State, s.keep.hash.cur = some (.cmd { booth := 0, tag := 5, op := .lifeMove target idSig } [] none)
        ∧ lifeCycle s = lifeCycle (staged n) ∧ ownerVerifies s idSig (leBytes 8 Config.idUnique.toNat ++ [m]) = true)
    ∧ (∃ s : State, s.keep.hash.cur = some (.cmd { booth := 0, tag := 5, op := .lifeMove .field (zeros 64) } [] none)
        ∧ lifeCycle s = .provisioned ∧ ownerVerifies s (zeros 64) (leBytes 8 Config.idUnique.toNat ++ [2]) = false)
    ∧ (∃ s : State, s.keep.hash.cur = some (.cmd { booth := 0, tag := 5, op := .lifeMove .retired (zeros 64) } [] none)
        ∧ lifeCycle s = .field ∧ ownerVerifies s (zeros 64) (leBytes 8 Config.idUnique.toNat ++ [3]) = false)
    ∧ (Serves op_lcProvision Needs.none (own []) signedImage ∧ lifeCycle signedImage = .blank ∧ cellWritten signedImage 1 = true
        ∧ cellWritten signedImage 2 = true ∧ cellWritten signedImage 3 = true ∧ ownerSigOk signedImage signedImage.boot.slot = true
        ∧ signedImage.keep.rngFailing = false)
    ∧ (Serves op_lcProvision Needs.none (own []) up ∧ cellWritten up 1 = false)
    ∧ (Serves op_lcField Needs.none (own (zeros 64)) up ∧ lifeCycle up ≠ .provisioned)
    ∧ (∃ s : State, Serves op_lcField Needs.none (own (zeros 64)) s ∧ lifeCycle s = .provisioned
        ∧ ownerVerifies s (zeros 64) (leBytes 8 Config.idUnique.toNat ++ [2]) = false)
    ∧ (Serves op_lcField Needs.none (own idSig) (staged 1) ∧ lifeCycle (staged 1) = .provisioned
        ∧ ownerVerifies (staged 1) idSig (leBytes 8 Config.idUnique.toNat ++ [2]) = true)
    ∧ (Serves op_lcRetire Needs.none (own (zeros 64)) up ∧ lifeCycle up ≠ .provisioned ∧ lifeCycle up ≠ .field)
    ∧ (∃ s : State, Serves op_lcRetire Needs.none (own (zeros 64)) s ∧ lifeCycle s = .field
        ∧ ownerVerifies s (zeros 64) (leBytes 8 Config.idUnique.toNat ++ [3]) = false)
    ∧ (Serves op_lcRetire Needs.none (own idSig) (staged 2) ∧ lifeCycle (staged 2) = .field
        ∧ ownerVerifies (staged 2) idSig (leBytes 8 Config.idUnique.toNat ++ [3]) = true ∧ LogReady (staged 2) ∧ (staged 2).vd.windows = []) := by
  refine ⟨⟨⟨rfl, rfl, rfl⟩, ⟨rfl, rfl, rfl⟩, ⟨rfl, rfl, rfl⟩, ⟨rfl, rfl, rfl⟩⟩, ⟨serves_of (by decide), by decide, by decide⟩
    , ⟨serves_of (by decide), by decide⟩, ⟨serves_of (by decide), by decide⟩, ⟨rfl, by decide, by decide, signedImage_ok⟩, ⟨rfl, by decide⟩
    , fun target n m => ⟨hashRuns (.lifeMove target idSig) (staged n), rfl, rfl, (ownerVerifies_keep _ _ _ _).trans (staged_verifies n _)⟩
    , ⟨hashRuns (.lifeMove .field (zeros 64)) (withCell 0 [1] 2 up), rfl, by decide, rfl⟩
    , ⟨hashRuns (.lifeMove .retired (zeros 64)) (withCell 0 [2] 1 up), rfl, by decide, rfl⟩
    , ⟨serves_of (by decide), by decide, by decide, by decide, by decide, signedImage_ok, rfl⟩, ⟨serves_of (by decide), by decide⟩
    , ⟨serves_of (by decide), by decide⟩, ⟨withCell 0 [1] 2 up, serves_of (by decide), by decide, rfl⟩
    , ⟨serves_of (by decide), by decide, staged_verifies _ _⟩, ⟨serves_of (by decide), by decide⟩
    , ⟨withCell 0 [2] 1 up, serves_of (by decide), by decide, rfl⟩
    , ⟨serves_of (by decide), by decide, staged_verifies _ _, logReady (by decide), rfl⟩⟩

theorem witness_SuppliesStartAndEndThePhases :
    (∃ s : State, s.phase = .unpowered ∧ s.ao.afterDown = true) ∧ (∃ s : State, s.phase = .unpowered ∧ s.ao.afterDown = false)
    ∧ (up.phase ≠ .unpowered ∧ up.vd.intake = [] ∧ up.vd.windows = [] ∧ up.phase ≠ .reset ∧ LogReady up ∧ up.nv.log.torn = false
        ∧ up.pwr.vddioOk = true)
    ∧ ∃ s : State, s.pwr.vddioOk = false ∧ s.phase = .reset :=
  ⟨⟨{ up with phase := .unpowered, ao := { up.ao with afterDown := true } }, by decide⟩, ⟨{ up with phase := .unpowered }, by decide⟩
  , ⟨by decide, rfl, rfl, by decide, logReady (by decide), rfl, rfl⟩, ⟨State.reset.onPwr fun p => { p with vddioOk := false }, by decide⟩⟩

theorem witness_ResetReleaseSensesAndSelectsTheSlot :
    startUpOk fairSamples = true ∧ startUpOk stuckSamples = false ∧ State.reset.err.aValid = false
    ∧ (State.reset.phase = .reset ∧ State.reset.pwr.vddioOk = true ∧ lifeCycle State.reset ≠ .retired ∧ State.reset.nv.br.retireMark = false
        ∧ State.reset.nv.br.floorPend = none ∧ imageOk State.reset .a = false ∧ imageOk State.reset .b = false
        ∧ slotState State.reset (otherSlot State.reset.nv.br.active) ≠ .trial
        ∧ State.reset.ao.causes &&& 1#11 <<< (Cause.powerOn.code - 1) ≠ 0)
    ∧ (∃ s : State, s.phase = .reset ∧ s.pwr.vddioOk = true ∧ s.ao.causes = 0x40 ∧ 2 ≤ s.ao.keepFaults)
    ∧ ∃ s : State, s.phase = .reset ∧ s.pwr.vddioOk = true ∧ slotState s (otherSlot s.nv.br.active) = .trial ∧ s.nv.br.started = true
        ∧ s.nv.br.due = true :=
  ⟨by decide +kernel, by decide +kernel, rfl, by decide +kernel, ⟨State.reset.onAo fun a => { a with causes := 0x40, keepFaults := 2 }, by decide⟩
  , ⟨State.reset.onNv fun n => { n with br := { n.br with stA := .trial, started := true, due := true } }, by decide⟩⟩

/-- Booting, an image verified. -/
def booting : State := { up with phase := .booting, boot := { up.boot with verified := true }, pwr := { up.pwr with pgood := true } }

theorem witness_RingmasterReleaseBeginsTheRunningPhase :
    (booting.phase = .booting ∧ booting.boot.verified = true ∧ booting.pwr.vddioOk = true ∧ booting.pwr.pgood = true ∧ booting.boot.loader = false
        ∧ booting.err.aValid = false ∧ booting.err.bValid = false ∧ booting.mem.wf = true ∧ restOk booting = false ∧ booting.nv.log.torn = false ∧ booting.ao.tamper = false
        ∧ LogReady booting)
    ∧ (∃ s : State, s.phase = .booting ∧ s.boot.verified = true ∧ s.pwr.vddioOk = true ∧ s.pwr.pgood = true ∧ s.boot.loader = false
        ∧ s.boot.fallback = true ∧ s.nv.doorRec = some { idle := 0, inCfg := 0, timing := 5, motor := 6 } ∧ (0 : Half).getLsbD 2 = s.ao.tamperLow)
    ∧ up.phase ≠ .booting :=
  ⟨⟨rfl, rfl, rfl, rfl, rfl, rfl, rfl, rfl, by decide, rfl, rfl, logReady (by decide)⟩
  , ⟨{ booting with boot := { booting.boot with fallback := true }
                    nv := { booting.nv with doorRec := some { idle := 0, inCfg := 0, timing := 5, motor := 6 } } }, by decide⟩, by decide⟩

/-! ### The spec's worked cases -/

/-- The packet of Table 7-6 and its two replies, byte by byte. -/
theorem test_cancel_packet_crc : crc16 [0xF0, 0x12, 0x01, 0x00, 0x11] = 0xEDB5 := by decide +kernel

theorem test_cancel_replies :
    replyBytes { tag := 0x11, status := .cancelled, payload := [], refusal := false } = [0x11, 0x02, 0x00, 0x00, 0xB3, 0x87]
    ∧ replyBytes { tag := 0x12, status := .ok, payload := [2], refusal := false } = [0x12, 0x00, 0x01, 0x00, 0x02, 0xA7, 0x46] := by
  decide +kernel

/-- HB_STRAP of room 214 (chapter 6). -/
theorem test_strap_register : hbStrap (up.onHb fun h => { h with strap := some (4, 0x40) }) = 0x00004004 := by decide

/-- The pending-event byte of Table 6-12, step 7. -/
theorem test_pending_event_byte :
    pendByte (up1.onBooth 1 fun x => { x with pend := x.pend.set 8 0x20 }) 1 = 0x12 := by decide +kernel

/-- Table 9-6: the entry with seven 1 bits is stored with the parity bit set. -/
theorem test_table_set_adds_parity :
    memRead (match exec (.tableSet (own [3, 1, 1, 0, 0x81, 5, 7, 0, 0, 0, 0, 0])) up with | .next t => t.mem | _ => []) 0x70188 8
      = [0x81, 0x05, 0x07, 0, 0, 0, 0, 0x80] := by decide +kernel

/-- The walk fault of chapter 9: pages 0 to 3 are mapped, and 256 bytes at 0x3F80 stop at page 4 of booth 3. -/
def doorStore : State := { up.onBooth 3 fun x => { x with mode := .enabled, depth := 2 } with
  mem := memWrite (memWrite [] 0x70180 (leBytes 8 0x70501)) 0x70500
    (leBytes 8 0x40706003 ++ leBytes 8 0x8000000040707003 ++ leBytes 8 0x8000000040708003 ++ leBytes 8 0x40709003) }

theorem test_store_write_walk_fault :
    (match exec (.storeWrite { src := { booth := 3, path := .host }, tag := 1, payload := leBytes 4 0x3F80 ++ zeros 256 } [] none) doorStore with
      | .next t => (t.booth 3).walkFault == 0x11004000 && (t.booth 3).replies == 
          [{ tag := 1, status := .walkRange, payload := [0x00, 0x40, 0x00, 0x00], refusal := false }] && decide (t.mem = doorStore.mem)
      | _ => false) = true := by decide +kernel

/-- Table 13-7. -/
theorem test_tariff_routine_words :
    (([0xA000000A, 0x05000100, 0x05200040, 0x50084800, 0xA4200001, 0x0D690800, 0x044000FF, 0x444B0000, 0xA8000000] : List Word).map jugDecode)
      = [some (.jugSetfv 10 false), some (.jugMovi (.a 0) 0x100), some (.jugMovi (.a 1) 0x40), some (.jugGath16 0 1 0), some (.jugGetf 1 1)
        , some (.jugAdd (.a 3) (.a 1) (.r 1)), some (.jugMovi (.r 2) 0xFF), some (.jugSt (.r 2) 3 0), some .jugResume] := by decide

/-- The gather of chapter 13: index word 0x44 is 0x0F02. Without a vector it traps, with the record that the chapter gives. -/
def tariff (v : Option Nat) : State :=
  let x : Run := { aRun 1 with booth := 4, pc := 3, a := ((Vector.replicate 4 0).set 0 0x100).set 1 0x40, vector := v }
  let s := coded x 0x50084800 (up.onBooth 4 fun x => { x with mode := .enabled })
  s.onJug fun j => { j with win := memWrite [] (4 * 4096 + 2 * 0x44) [0x02, 0x0F] }

theorem test_tariff_gather_traps :
    (match exec (.jugGath16 0 1 0) (tariff none) with
      | .next t => (t.booth 4).replies.map (fun r => (r.status, r.payload))
          == [(Status.routineTrap, [0x01, 0x04, 0x03, 0x00, 0x02, 0x10, 0x00, 0x00])] && (t.booth 4).rtnState == .trapped
      | _ => false) = true := by decide +kernel

theorem test_tariff_gather_enters_handler :
    (match exec (.jugGath16 0 1 0) (tariff (some 10)) with
      | .next t => t.jug.run.map (fun x => (x.pc, x.flt.lane, x.flt.addr, x.handler)) == some (10, 4, 0x1002, true)
      | _ => false) = true := by decide +kernel

/-- The datacast retune of chapter 12. -/
theorem test_frequency_control_word : dividerOf 868300 = 4 ∧ fcwOf 868300 = 0x8595A95B ∧ dividerOf 98650 = 36 := by decide

/-- Table 14-13: the header check, the scrambled first byte and the quality of the frame. -/
theorem test_time_frame_header : hcrc 0x00A0A1 = 0x3B ∧ headerGood 0x3BA0A1 = true := by decide +kernel

theorem test_time_frame_scrambler :
    scrambler 8 (scramblerStart 10) = [true, true, false, true, false, false, true, false]
    ∧ bytesOfBits 1 (List.zipWith (fun x y => x != y) [false, true, true, true, true, true, false, false] (scrambler 8 (scramblerStart 10))) = [0x75] := by
  decide +kernel

theorem test_time_frame_quality : evmField 14500 = 58 ∧ lqiField 1 true 14500 = 188 := by decide +kernel

/-- The CT of chapter 16, and its AF list, which is method A. -/
theorem test_clock_time : ctOf { aGroup with b := good 0x4001, c := good 0xDA98, d := good 0xE002 } = { mjd := 60748, hour := 14, minute := 0, ofs := 2 }
    ∧ ctSeconds { mjd := 60748, hour := 14, minute := 0, ofs := 2 } = 37893600 := by decide +kernel

theorem test_af_list_method_a : methodB 9840 [0x6D, 0x8E, 0x4B] = false ∧ afFollow 9840 [0x6D, 0x8E, 0x4B] = [9840, 10170, 9500] := by decide

/-- Table 17-7: 28 h at 2.6 ppm and 20 h at 200 ppm, and the UNC bytes of chapter 17. -/
theorem test_uncertainty_growth : 144 * 2600 * (28 * 3600 * 32768) * 100 = 26208 * uUnit ∧ 144 * 200000 * (20 * 3600 * 32768) = 14400 * uUnit := by
  decide

theorem test_unc_byte : uncFrom (251 * uUnit) 32 0 = 8 ∧ uncFrom (4097 * uUnit) 32 0 = 13 ∧ uncFrom (4096 * uUnit) 32 0 = 12
    ∧ uncFrom (8193 * uUnit) 32 0 = 14 := by decide +kernel

/-! ### Terms that are not well formed, one for each check -/

theorem test_wf_source : Src.wf { booth := 1, path := .debug } = false ∧ 
    (Instr.getInfo { src := { booth := 1, path := .debug }, tag := 0, payload := [] }).wf = false := by decide
theorem test_wf_payload : (Instr.getInfo (own (zeros 1025))).wf = false ∧ (Instr.getInfo (own [])).wf = true := by decide +kernel
theorem test_wf_opcode : NopOp.wf (.unlisted 0x01) = false ∧ NopOp.wf (.unlisted 0xFF) = true := by decide
theorem test_wf_malformed : Malformed.wf (.length 1024) = false ∧ Malformed.wf (.length 1025) = true := by decide
theorem test_wf_memory_error : (Instr.storeRead (own []) [{ space := .phys, addr := 4, hard := true }]).wf = false := by decide
theorem test_wf_canaries : (Instr.trackingPass { readings := [(11, 80)], temp := 0, vinMv := 0 }).wf = false := by decide
theorem test_wf_register_address : (Instr.boothPriv s0 (.read 0x1000 4)).wf = false ∧ (Instr.regWrite s0 0x1002 0 .freed).wf = false
    ∧ (Instr.regWrite s0 0x2 0 .freed).wf = false ∧ (Instr.regWrite s0 0x4 0 .freed).wf = true := by decide
theorem test_wf_port_write : (Instr.replyRead s0 (some (.boothByte 7)) 1).wf = false ∧ (Instr.replyRead s0 (some (.boothByte 8)) 1).wf = true
    ∧ (Instr.replyRead s0 (some (.other 4)) 1).wf = false ∧ (Instr.replyRead s0 (some (.other 5)) 1).wf = true := by decide
theorem test_wf_debug_packet : Packet.wf { src := { booth := 0, path := .debug }, tag := 0, payload := zeros 250 } = false
    ∧ Packet.wf { src := { booth := 0, path := .debug }, tag := 0, payload := zeros 249 } = true := by decide +kernel
theorem test_wf_car_errors : (Instr.carVerified { ecc := [{ space := .phys, addr := 4, hard := true }], back := aCal }).wf = false
    ∧ (Instr.dcFrameEnd { ecc := [{ space := .phys, addr := 4, hard := true }], bits := [], s := 0, rssi := 0, back := aCal }).wf = false := by
  decide
theorem test_wf_rnd_target : (Instr.jugRnd (.a 0) false 0).wf = false := by decide
theorem test_wf_end_count : (Instr.jugEnd 0 3).wf = false ∧ (Instr.jugEnd 0 66).wf = false ∧ (Instr.jugEnd 0 64).wf = true := by decide
theorem test_wf_owner_booth : (Instr.boothDrainEnd 0).wf = false ∧ (Instr.bthSlotsWrite s0 0 false 0).wf = false := by decide
theorem test_wf_canary_trip : (Instr.canaryTrip 0 85).wf = false ∧ (Instr.canaryTrip 0 86).wf = true := by decide

end Sys2Proof.Tests
end

section
/-! SUPPORT. What a write through the register port does at each address (R9, R114, R115, R155 to R160), and which writes
the registers discard (R8). -/

namespace Sys2Proof.Machine

/-! ### What changes pending bits and in-band requests only -/

/-- Nothing but the host bus and pending bits differs. -/
structure PendOnly (s t : State) : Prop where
  bus : OnlyBus s t
  cmd : t.cmd = { s.cmd with booths := t.cmd.booths }
  booths : ∀ b, t.booth b = { s.booth b with pend := (t.booth b).pend }

theorem PendOnly.trans {s t u : State} (h : PendOnly s t) (k : PendOnly t u) : PendOnly s u :=
  ⟨h.bus.trans k.bus, same_cmd h.cmd k.cmd, fun b => same_booth (h.booths b) (k.booths b)⟩

theorem onHb_pendOnly (f : Hb → Hb) (s : State) : PendOnly s (s.onHb f) := ⟨rfl, rfl, fun _ => rfl⟩

theorem regWritten_pendOnly (src : Src) (a : Nat) (s : State) : PendOnly s (regWritten src a s) := ⟨rfl, rfl, fun _ => rfl⟩

theorem setSel_pendOnly (src : Src) (p : Port) (s : State) : PendOnly s (setSel src p s) := by
  unfold setSel
  split
  · exact ⟨rfl, rfl, fun _ => rfl⟩
  · split <;> exact onHb_pendOnly _ s

theorem deliver_pendOnly (e : Ev) (b : Booth) (s : State) : PendOnly s (deliver e b s) :=
  ⟨deliver_only e b s, deliver_cmd e b s, fun c => deliver_keeps e b c s⟩

theorem raise_pendOnly (e : Ev) (s : State) : PendOnly s (raise e s) :=
  ⟨raise_only e s, raise_cmd e s, fun b => raise_keeps e b s⟩

/-- Outside the loader state an event of a booth other than 0 is delivered to it, then to booth 0 (Table 18-1). -/
theorem raiseToBoth_eq_deliver {e : Ev} {b : Booth} {s : State} (hl : s.boot.loader = false) (hb : b ≠ 0) :
    raiseToBoth e b s = deliver e 0 (deliver e b s) := by
  simp [raiseToBoth, raiseTo, hl, hb]

/-- Nothing but the in-band requests differs. -/
def RequestsOnly (s t : State) : Prop := ∃ q, t = s.onHb fun h => { h with ibrReq := q }

theorem requestsOnly_refl (s : State) : RequestsOnly s s := ⟨s.hb.ibrReq, rfl⟩

theorem RequestsOnly.trans {s t u : State} (h : RequestsOnly s t) (k : RequestsOnly t u) : RequestsOnly s u := by
  obtain ⟨_, rfl⟩ := h
  obtain ⟨q, rfl⟩ := k
  exact ⟨q, rfl⟩

theorem ibrArise_requestsOnly (b : Booth) (s : State) : RequestsOnly s (ibrArise b s) := ⟨_, ibrArise_eq b s⟩

theorem ibrNewly_requestsOnly (before : State) : ∀ (bs : List Booth) (s : State), RequestsOnly s (ibrNewly before bs s)
  | [], s => requestsOnly_refl s
  | b :: bs, s => by
    unfold ibrNewly
    refine RequestsOnly.trans ?_ (ibrNewly_requestsOnly before bs _)
    split
    · exact ⟨_, rfl⟩
    · exact requestsOnly_refl s

theorem onBooth_id (b : Booth) (s : State) : (s.onBooth b fun x => x) = s := by
  have e : s.cmd.booths.set b (s.cmd.booths.get b) = s.cmd.booths := Vector.set_getElem_self b.isLt
  unfold State.onBooth State.onCmd
  dsimp only
  rw [e]

/-! ### The front of a register write -/

/-- What a register's own effect is matters only to a sender that reaches the register (R115). -/
theorem regPort_congr {src : Src} {a : Nat} {k k' : State → State} (h : src.booth = 0 ∨ a < 0x100 → ∀ t, k t = k' t)
    (s : State) : regPort src a k s = regPort src a k' s := by
  have word : ∀ t, writeWord src a k t = writeWord src a k' t := fun t => by
    by_cases r : src.booth = 0 ∨ a < 0x100
    · rw [funext (h r)]
    · simp [writeWord, r]
  unfold regPort
  dsimp only
  rw [word]

/-- A booth 1 to 7 that reaches past its window is not acknowledged, and EV_BOOTH_PRIV is raised (R115). -/
theorem regPort_outside {src : Src} {a : Nat} {s : State} (k : State → State) (answers : busAnswers s src true = true)
    (awake : s.hb.asleep = false) (hl : s.boot.loader = false) (hb : src.booth ≠ 0) (ha : 0x100 ≤ a) :
    regPort src a k s = setAck false (boothPrivEvent src.booth (setSel src (.register a)
      (s.onHb fun h => { h with ibrQuiet := quietAfter src s, out := [], ack := true }))) := by
  unfold regPort
  rw [busFront_awake answers awake]
  simp [writeWord, hl, hb, Nat.not_lt.2 ha, State.onHb]

@[simp] theorem pends_setAck (e : Ev) (b : Booth) (x : Bool) (s : State) : pends e b (setAck x s) = pends e b s := rfl

/-- A register's write that leaves the state as it is changes nothing but the selection. -/
theorem exec_of_ignored {i : Instr} {src : Src} {a : Nat} {k : State → State} {s : State}
    (he : exec i s = .next (regPort src a k s)) (w : Writes src a s) (hk : k (regWritten src a s) = regWritten src a s) :
    exec i s = .next (regWritten src a s) := by
  rw [he, regPort_writes k w, hk]

theorem exec_regWrite {a : Half} {n : Nat} (src : Src) (v : Word) (c : ClearResult) (s : State) (ha : a.toNat = n)
    (hn : n % 4 = 0 ∧ n < 0x1000) :
    exec (.regWrite src a v c) s = .next (regPort src n (writeReg src.booth n v c) s) := by
  subst ha
  exact if_pos hn

/-! ### The map of writable registers -/

theorem writeReg_window {b : Booth} {o : Nat} {v : Word} {c : ClearResult} {s : State} (ho : o < 0x100) :
    writeReg b o v c s = writeWindow b o v s := by
  simp [writeReg, regAddr, ho, show ¬ 0x800 ≤ o by omega]

/-- The mirror of the owner's window (R155). -/
theorem writeReg_mirror {b : Booth} {o : Nat} {v : Word} {c : ClearResult} {s : State} (ho : o < 0x100) :
    writeReg b (0x800 + o) v c s = writeWindow b o v s := by
  simp [writeReg, regAddr, ho, show 0x800 + o < 0x900 by omega]

theorem writeReg_owner {a : Nat} {v : Word} {c : ClearResult} {s : State} (lo : 0x100 ≤ a) (hi : a < 0x800 ∨ 0x900 ≤ a) :
    writeReg 0 a v c s = writePriv a v c s := by
  simp [writeReg, regAddr, show ¬ (0x800 ≤ a ∧ a < 0x900) by omega, show ¬ a < 0x100 by omega]

theorem writePriv_own (n : Fin 8) (v : Word) (c : ClearResult) (s : State) :
    writePriv (0x340 + 4 * n.val) v c s = writePbOwn n v s := by
  have hn : Fin.ofNat 8 ((0x340 + 4 * n.val - 0x340) / 4) = n := Fin.ext (by simp [Fin.ofNat])
  unfold writePriv
  rw [if_pos (by omega), hn]

theorem writePriv_route (g : Fin 17) (v : Word) (c : ClearResult) (s : State) :
    writePriv (0x400 + 4 * g.val) v c s = writeRoute g v s := by
  have hg : Fin.ofNat 17 ((0x400 + 4 * g.val - 0x400) / 4) = g := Fin.ext (by simp [Fin.ofNat])
  unfold writePriv
  rw [if_neg (by omega), if_pos (by omega), hg]

theorem bit_le_one (x : Bool) : bit x ≤ 1 := by cases x <;> decide

theorem writePriv_slots {b : Booth} (hb : b ≠ 0) (hi : Bool) (v : Word) (c : ClearResult) (s : State) :
    writePriv (0x468 + 8 * b.val + 4 * bit hi) v c s = writeSlots b hi v s := by
  have pos : 0 < b.val := Nat.pos_of_ne_zero (Fin.val_ne_zero_iff.2 hb)
  have le := bit_le_one hi
  have hn : Fin.ofNat 8 ((0x468 + 8 * b.val + 4 * bit hi - 0x470) / 8 + 1) = b := Fin.ext (by simp [Fin.ofNat]; omega)
  have hh : decide ((0x468 + 8 * b.val + 4 * bit hi - 0x470) / 4 % 2 = 1) = hi := by
    cases hi <;> simp [bit] <;> omega
  unfold writePriv
  rw [if_neg (by omega), if_neg (by omega), if_pos (by omega), hn, hh]

theorem writeWindow_pend (b : Booth) (g : Fin 17) (v : Word) (s : State) :
    writeWindow b (0x40 + 4 * g.val) v s = writePend b g v 0 s := by
  have hg : Fin.ofNat 17 ((0x40 + 4 * g.val - 0x40) / 4) = g := Fin.ext (by simp [Fin.ofNat])
  unfold writeWindow
  rw [if_pos (by omega), hg]

theorem writeWindow_mask (b : Booth) (g : Fin 17) (v : Word) (s : State) :
    writeWindow b (0x90 + 4 * g.val) v s = writeMask b g v s := by
  have hg : Fin.ofNat 17 ((0x90 + 4 * g.val - 0x90) / 4) = g := Fin.ext (by simp [Fin.ofNat])
  unfold writeWindow
  rw [if_neg (by omega), if_pos (by omega), hg]

theorem writePend_requestsOnly (b : Booth) (g : Fin 17) (v same : Word) (s : State) :
    RequestsOnly (s.onBooth b fun x => { x with pend := x.pend.set g ((x.pend.get g &&& ~~~ v) ||| (same &&& evBits g.val)) })
      (writePend b g v same s) := by
  unfold writePend
  dsimp only
  split
  · exact ibrArise_requestsOnly b _
  · exact requestsOnly_refl _

/-- A write in the window is an update of its booth and in-band requests: what it does to the booth does not depend on
the host bus. -/
theorem writeWindow_requestsOnly (b : Booth) (o : Nat) (v : Word) :
    ∃ f, ∀ s, RequestsOnly (s.onBooth b f) (writeWindow b o v s) := by
  unfold writeWindow
  split
  · exact ⟨_, writePend_requestsOnly b _ v 0⟩
  · split
    · exact ⟨_, fun s => ibrNewly_requestsOnly s [b] _⟩
    · exact ⟨fun x => x, fun s => by rw [onBooth_id]; exact requestsOnly_refl s⟩

theorem writeWindow_other {b : Booth} {o : Nat} {v : Word} {s : State} (hp : ¬ (0x40 ≤ o ∧ o < 0x84))
    (hm : ¬ (0x90 ≤ o ∧ o < 0xD4)) : writeWindow b o v s = s := by
  unfold writeWindow
  rw [if_neg hp, if_neg hm]

theorem writePriv_other {a : Nat} {v : Word} {c : ClearResult} {s : State} (own : ¬ (0x340 ≤ a ∧ a < 0x360))
    (route : ¬ (0x400 ≤ a ∧ a < 0x444)) (slots : ¬ (0x470 ≤ a ∧ a < 0x4A8)) (regs : a ∉ ownerRegs) :
    writePriv a v c s = s := by
  unfold writePriv
  rw [if_neg own, if_neg route, if_neg slots]
  simp only [ownerRegs, List.mem_cons, List.not_mem_nil, or_false, not_or] at regs
  split <;> simp at regs ⊢

/-- An address that holds no writable register takes no word (R9). -/
theorem writeReg_unwritable {b : Booth} {a : Nat} {v : Word} {c : ClearResult} {s : State} (h : writable a = false) :
    writeReg b a v c s = s := by
  simp only [writable, Bool.or_eq_false_iff, decide_eq_false_iff_not, Bool.and_eq_false_imp, decide_eq_true_eq,
    List.contains_eq_mem, not_or] at h
  obtain ⟨⟨⟨⟨⟨⟨pend, mask⟩, mirror⟩, own⟩, route⟩, slots⟩, regs⟩ := h
  unfold writeReg regAddr
  dsimp only
  split
  case isTrue ha =>
    rw [if_pos (by omega)]
    exact writeWindow_other (mirror ha).1 (mirror ha).2
  case isFalse =>
    split
    · exact writeWindow_other pend mask
    · split
      · exact writePriv_other own route slots regs
      · rfl

/-! ### REG_WRITE at the registers -/

/-- REG_WRITE at an address of the owner's view is the effect that the map gives there. -/
theorem regWrite_owner {src : Src} {a : Half} {n : Nat} {v : Word} {c : ClearResult} {s : State} (k : State → State)
    (ha : a.toNat = n) (hn : n % 4 = 0 ∧ 0x100 ≤ n ∧ n < 0x800) (hk : ∀ t, writePriv n v c t = k t) :
    exec (.regWrite src a v c) s = .next (regPort src n k s) := by
  obtain ⟨al, lo, hi⟩ := hn
  rw [exec_regWrite src v c s ha ⟨al, by omega⟩]
  refine congrArg _ (regPort_congr (fun r t => ?_) s)
  rw [r.resolve_right (by omega), writeReg_owner lo (Or.inl hi), hk]

/-- REG_WRITE at an address of the window is the effect that the window has there. -/
theorem regWrite_window {src : Src} {a : Half} {n : Nat} {v : Word} {c : ClearResult} {s : State} (k : State → State)
    (ha : a.toNat = n) (hn : n % 4 = 0 ∧ n < 0x100) (hk : ∀ t, writeWindow src.booth n v t = k t) :
    exec (.regWrite src a v c) s = .next (regPort src n k s) := by
  obtain ⟨al, lt⟩ := hn
  rw [exec_regWrite src v c s ha ⟨al, by omega⟩]
  exact congrArg _ (regPort_congr (fun _ t => (writeReg_window lt).trans (hk t)) s)

theorem toNat_half {n : Nat} (h : n < 0x1000) : (BitVec.ofNat 16 n).toNat = n :=
  BitVec.toNat_ofNat .. ▸ Nat.mod_eq_of_lt (by omega)

/-- REG_WRITE through the mirror of the owner's window leaves what the same write to the window leaves, but for the
selection on the host bus (R155). -/
theorem regWrite_mirror {src : Src} {o : Nat} {v : Word} {c : ClearResult} {s : State} (owner : src.booth = 0) (lt : o < 0x100)
    (al : o % 4 = 0) (w : Writes src o s) :
    ∃ t u, exec (.regWrite src (BitVec.ofNat 16 (0x800 + o)) v c) s = .next t
      ∧ exec (.regWrite src (BitVec.ofNat 16 o) v c) s = .next u
      ∧ t.cmd = u.cmd ∧ t.hb.ack = true ∧ t = { u with hb := t.hb } := by
  have w' : Writes src (0x800 + o) s := { w with view := Or.inl owner }
  obtain ⟨f, hf⟩ := writeWindow_requestsOnly src.booth o v
  obtain ⟨p, hp⟩ := hf (regWritten src (0x800 + o) s)
  obtain ⟨q, hq⟩ := hf (regWritten src o s)
  refine ⟨_, _, exec_regWrite src v c s (toNat_half (by omega)) ⟨by omega, by omega⟩
    , exec_regWrite src v c s (toNat_half (by omega)) ⟨al, by omega⟩, ?_⟩
  rw [regPort_writes _ w', regPort_writes _ w, writeReg_mirror lt, writeReg_window lt, hp, hq]
  exact ⟨rfl, rfl, rfl⟩

/-- At an address without a writable register nothing but the selection changes (R9, R114). -/
theorem regWrite_unwritable {src : Src} {a : Half} {v : Word} {c : ClearResult} {s : State} (w : Writes src a.toNat s)
    (al : a.toNat % 4 = 0) (lt : a.toNat < 0x1000) (ro : writable a.toNat = false) :
    exec (.regWrite src a v c) s = .next (regWritten src a.toNat s) :=
  exec_of_ignored (exec_regWrite src v c s rfl ⟨al, lt⟩) w (writeReg_unwritable ro)

/-- An address that is not aligned, or not below 0x1000, is not acknowledged (R114). -/
theorem regWrite_misaddressed {src : Src} {a : Half} {v : Word} {c : ClearResult} {s : State}
    (answers : busAnswers s src true = true) (awake : s.hb.asleep = false) (bad : ¬ (a.toNat % 4 = 0 ∧ a.toNat < 0x1000)) :
    exec (.regWrite src a v c) s = .next (s.onHb fun h => { h with ibrQuiet := quietAfter src s, out := [], ack := false }) := by
  have front : exec (.regWrite src a v c) s = .next (setAck false (busFront src true s).1) := if_neg bad
  rw [front, busFront_awake answers awake]
  rfl

/-- REG_WRITE of a booth 1 to 7 past its window changes nothing but the host bus and the pending bits, and EV_BOOTH_PRIV is
pending for the booth and for booth 0 (R115, Table 18-1). -/
theorem regWrite_outside {src : Src} {a : Half} {v : Word} {c : ClearResult} {s : State}
    (answers : busAnswers s src true = true) (awake : s.hb.asleep = false) (hl : s.boot.loader = false) (hb : src.booth ≠ 0)
    (self : (s.booth src.booth).mode = .enabled) (owner : (s.booth 0).mode = .enabled) (al : a.toNat % 4 = 0)
    (lo : 0x100 ≤ a.toNat) (hi : a.toNat < 0x1000) :
    ∃ t, exec (.regWrite src a v c) s = .next t ∧ OnlyBus s t ∧ t.hb.ack = false
      ∧ pends .boothPriv src.booth t = true ∧ pends .boothPriv 0 t = true ∧ t.cmd = { s.cmd with booths := t.cmd.booths }
      ∧ ∀ b, t.booth b = { s.booth b with pend := (t.booth b).pend } := by
  rw [exec_regWrite src v c s rfl ⟨al, hi⟩, regPort_outside _ answers awake hl hb lo]
  have heard := (onHb_pendOnly (fun h => { h with ibrQuiet := quietAfter src s, out := [], ack := true }) s).trans
    (setSel_pendOnly src (.register a.toNat) _)
  generalize setSel src (.register a.toNat) _ = u at heard ⊢
  have mode : ∀ b, (u.booth b).mode = (s.booth b).mode := fun b => by rw [heard.booths b]
  rw [boothPrivEvent, raiseToBoth_eq_deliver (by rw [heard.bus.boot, hl]) hb]
  have delivered := (heard.trans (deliver_pendOnly .boothPriv src.booth u)).trans (deliver_pendOnly .boothPriv 0 _)
  have only := delivered.trans (onHb_pendOnly (fun h => { h with ack := false }) _)
  refine ⟨_, rfl, only.bus, rfl, ?_, ?_, only.cmd, only.booths⟩
  · rw [pends_setAck]
    exact deliver_mono _ _ _ _ _ (deliver_pends _ _ _ ((mode _).trans self))
  · rw [pends_setAck]
    exact deliver_pends _ _ _ (by rw [deliver_mode, mode, owner])

/-- A bit that a word holds is not set anew. -/
theorem or_twoPow_of_getLsbD {w : Nat} {v : BitVec w} {i : Nat} (h : v.getLsbD i = true) : v ||| BitVec.twoPow w i = v := by
  ext j hj
  by_cases e : i = j
  · subst e
    simp [← BitVec.getLsbD_eq_getElem, h]
  · simp [Ne.symm e, BitVec.getElem_twoPow]

theorem writeCoexCfg_idle {v : Word} {s : State} (dc : s.rx.mode ≠ .datacast) (fm : s.rx.mode ≠ .fm) :
    writeCoexCfg v s = s.onRx fun r =>
      { r with coexCfg := v &&& 0x333, coexReq := r.coexReq && v.getLsbD 0, coexPri := r.coexPri && v.getLsbD 0 } := by
  unfold writeCoexCfg noteBlank
  rw [if_neg (by simp [blanking, dc, fm])]

/-! ### Writes that are discarded -/

/-- A register's write whose effect is a rejection raises EV_REG_REJECT, is acknowledged, and changes nothing else (R8). -/
theorem exec_of_regReject {i : Instr} {src : Src} {a : Nat} {k : State → State} {s : State}
    (he : exec i s = .next (regPort src a k s)) (w : Writes src a s)
    (hk : k (regWritten src a s) = regReject (regWritten src a s)) :
    ∃ t, exec i s = .next t ∧ Raised .regReject s t ∧ OnlyBus s t
      ∧ t.hb = { heardWrite src a s with ibrReq := t.hb.ibrReq }
      ∧ t.cmd = { s.cmd with booths := t.cmd.booths } ∧ ∀ b, t.booth b = { s.booth b with pend := (t.booth b).pend } := by
  have only := (regWritten_pendOnly src a s).trans (raise_pendOnly .regReject _)
  exact ⟨regReject (regWritten src a s), by rw [he, regPort_writes k w, hk], raise_raised .regReject (regWritten src a s) w.loader
    , only.bus, raise_hb _ _, only.cmd, only.booths⟩

section
variable {v : Word} {s : State}

theorem writeTrackCtrl_reserved (h : 2 ≤ bits v 0 2 ∨ 36 ≤ bits v 8 6) : writeTrackCtrl v s = regReject s := if_pos h

theorem writeBattCfg_locked (h : s.pwr.battCfg.getLsbD 31 = true) : writeBattCfg v s = s := if_pos h

theorem writeBattCfg_reserved (open_ : s.pwr.battCfg.getLsbD 31 = false)
    (h : (1 ≤ bits v 0 8 ∧ bits v 0 8 ≤ 84) ∨ (1 ≤ bits v 8 8 ∧ bits v 8 8 ≤ 84)
      ∨ (bits v 0 8 ≠ 0 ∧ bits v 8 8 ≠ 0 ∧ bits v 0 8 ≤ bits v 8 8)) : writeBattCfg v s = regReject s := by
  simp only [writeBattCfg, open_, Bool.false_eq_true, if_false]
  exact if_pos h

theorem writeTcxoCfg_reserved (h : 5 ≤ bits v 0 3) (new : bits v 0 3 ≠ bits s.pwr.tcxoCfg 0 3) :
    writeTcxoCfg v s = regReject s := by
  simp [writeTcxoCfg, new, show ¬ bits v 0 3 = 0 by omega, show ¬ bits v 0 3 ≤ 4 by omega]

theorem writeAddrCfg_locked (h : s.hb.addrCfg.getLsbD 31 = true) : writeAddrCfg v s = s := if_pos h

theorem writeAddrCfg_reserved (open_ : s.hb.addrCfg.getLsbD 31 = false)
    (h : bits v 0 2 = 3 ∨ Nat.land (bits v 16 3) (bits v 8 3) ≠ 0 ∨ cfgAnswersReserved s v = true) :
    writeAddrCfg v s = regReject s := by
  simp only [writeAddrCfg, open_, Bool.false_eq_true, if_false]
  exact if_pos h

theorem writeHbCfg_reserved (h : bits v 16 8 = 0) : writeHbCfg v s = regReject s := if_pos h

theorem writePbCfg_reserved (h : bits v 0 2 = 3 ∨ bits v 16 8 = 0) : writePbCfg v s = regReject s := if_pos h

theorem writePbOwn_reserved {n : Fin 8} (valid : v.getLsbD 15 = true)
    (h : bits v 0 7 = 0x3C ∨ bits v 0 7 < 8 ∨ 0x78 ≤ bits v 0 7) : writePbOwn n v s = regReject s := by
  simp [writePbOwn, addrReserved, valid, h]

theorem writeSlots_taken {b o : Booth} {hi : Bool} (hb : b ≠ 0) (ho : o ≠ 0) (hne : o ≠ b)
    (h : (s.booth o).slots &&& (if hi then v.zeroExtend 64 <<< 32 else (v &&& 0xFFFFFF00).zeroExtend 64) ≠ 0) :
    writeSlots b hi v s = regReject s := by
  unfold writeSlots
  rw [if_neg hb]
  exact if_pos (List.any_eq_true.2 ⟨o, mem_allBooths o, by simp only [bne_iff_ne.2 ho, bne_iff_ne.2 hne, bne_iff_ne.2 h]; rfl⟩)

theorem writeClk1_reserved
    (h : 6 ≤ bits v 4 3 ∨ (v.getLsbD 0 = true ∧ (bits v 16 16 < 1000 ∨ 50000 < bits v 16 16))) :
    writeClk1 v s = regReject s := if_pos h

theorem writeDetCfg_reserved (h : bits v 0 3 = 0) : writeDetCfg v s = regReject s := if_pos h

theorem writeRtnCfg_reserved (h : bits v 0 8 = 0) : writeRtnCfg v s = regReject s := if_pos h

theorem writeOutCfg_locked (h : s.door.outCfg.getLsbD 31 = true) : writeOutCfg v s = s := if_pos h

theorem writeInCfg_locked (h : s.door.inCfg.getLsbD 31 = true) : writeInCfg v s = s := if_pos h

theorem writeTiming_reserved (h : bits v 0 8 < 5 ∨ 100 < bits v 0 8 ∨ bits v 8 8 = 0 ∨ bits v 16 8 < 10) :
    writeTiming v s = regReject s := if_pos h

theorem writeMotor_reserved (h : 1200 < bits v 0 12) : writeMotor v s = regReject s := if_pos h

theorem writeLed_reserved (h : bits v 0 2 = 3 ∨ bits v 8 8 = 0 ∨ bits v 16 8 = 0 ∨ 10 * bits v 16 8 ≤ bits v 8 8) :
    writeLed v s = regReject s := if_pos h

end

end Sys2Proof.Machine
end

section
/-! The obligations of the register port. -/

namespace Sys2Proof.Machine

/-- Settles O25: each register's reserved branch is a rejection of the whole write, its locked branch does nothing. -/
theorem reservedAndLockedWritesAreDiscarded : Obligations.ReservedAndLockedWritesAreDiscarded := by
  unfold Obligations.ReservedAndLockedWritesAreDiscarded
  refine ⟨?_, fun src v s => ⟨?_, ?_, ?_, ?_⟩⟩
  · rintro i src a s w ⟨v, h⟩
    obtain ⟨rfl, rfl, h⟩ | ⟨rfl, rfl, open_, h⟩ | ⟨rfl, rfl, h, new⟩ | ⟨rfl, rfl, open_, h⟩ | ⟨rfl, rfl, h⟩ | ⟨rfl, rfl, h⟩
      | ⟨n, rfl, rfl, valid, h⟩ | ⟨b, hi, rfl, rfl, hb, o, ho, hne, h⟩ | ⟨rfl, rfl, h⟩ | ⟨rfl, rfl, h⟩ | ⟨rfl, rfl, h⟩
      | ⟨rfl, rfl, h⟩ | ⟨rfl, rfl, h⟩ | ⟨rfl, rfl, h⟩ := h
    · exact exec_of_regReject rfl w (writeTrackCtrl_reserved h)
    · exact exec_of_regReject rfl w (writeBattCfg_reserved open_ h)
    · exact exec_of_regReject rfl w (writeTcxoCfg_reserved h new)
    · exact exec_of_regReject rfl w (writeAddrCfg_reserved open_ h)
    · exact exec_of_regReject rfl w (writeHbCfg_reserved h)
    · exact exec_of_regReject rfl w (writePbCfg_reserved h)
    · exact exec_of_regReject rfl w (writePbOwn_reserved valid h)
    · exact exec_of_regReject rfl w (writeSlots_taken hb ho hne h)
    · exact exec_of_regReject rfl w (writeClk1_reserved h)
    · exact exec_of_regReject rfl w (writeDetCfg_reserved h)
    · exact exec_of_regReject rfl w (writeRtnCfg_reserved h)
    · exact exec_of_regReject rfl w (writeTiming_reserved h)
    · exact exec_of_regReject rfl w (writeMotor_reserved h)
    · exact exec_of_regReject rfl w (writeLed_reserved h)
  · exact fun w lock => exec_of_ignored rfl w (writeBattCfg_locked lock)
  · exact fun w lock => exec_of_ignored rfl w (writeAddrCfg_locked lock)
  · exact fun w lock => ⟨exec_of_ignored rfl w (writeOutCfg_locked lock), exec_of_ignored rfl w (writeOutCfg_locked lock)⟩
  · exact fun w lock => exec_of_ignored rfl w (writeInCfg_locked lock)

/-- Settles O26: the map is read off at each address; the front of the write decides the other clauses. -/
theorem registerPortReachesTheMap : Obligations.RegisterPortReachesTheMap := by
  unfold Obligations.RegisterPortReachesTheMap
  refine ⟨fun src v c s => ⟨?_, ?_, ?_, ?_, ?_, ?_, ?_, ?_, ?_, ?_, ?_, ?_, ?_, ?_, ?_, ?_, ?_, ?_, ?_, ?_, ?_, ?_, ?_, ?_, ?_, ?_, ?_
    , ?_, ?_⟩, ?_, ?_, ?_, ?_, ?_⟩
  · exact regWrite_owner (writeTrackCtrl v) rfl (by decide) fun _ => rfl
  · exact regWrite_owner (writeBattCfg v) rfl (by decide) fun _ => rfl
  · exact regWrite_owner (writeTcxoCfg v) rfl (by decide) fun _ => rfl
  · exact regWrite_owner (writeGateReq v) rfl (by decide) fun _ => rfl
  · exact regWrite_owner (writeGateReq v) rfl (by decide) fun _ => rfl
  · exact regWrite_owner (writeAddrCfg v) rfl (by decide) fun _ => rfl
  · exact regWrite_owner (writeHbCfg v) rfl (by decide) fun _ => rfl
  · exact regWrite_owner (writePbCfg v) rfl (by decide) fun _ => rfl
  · exact regWrite_owner (writePbCtrl v c) rfl (by decide) fun _ => rfl
  · exact regWrite_owner (writeSig v) rfl (by decide) fun _ => rfl
  · exact regWrite_owner (writeClk0 v) rfl (by decide) fun _ => rfl
  · exact regWrite_owner (writeClk1 v) rfl (by decide) fun _ => rfl
  · exact regWrite_owner (writeDetCfg v) rfl (by decide) fun _ => rfl
  · exact regWrite_owner (writeFmShift v) rfl (by decide) fun _ => rfl
  · exact regWrite_owner (writeFrdCtrl v) rfl (by decide) fun _ => rfl
  · exact regWrite_owner (writeRtnCfg v) rfl (by decide) fun _ => rfl
  · exact regWrite_owner (writeOutCfg v) rfl (by decide) fun _ => rfl
  · intro lock
    exact regWrite_owner (writeOutCfg (v ||| 0x80000000)) rfl (by decide) fun t =>
      congrArg (writeOutCfg · t) (or_twoPow_of_getLsbD lock).symm
  · exact regWrite_owner (writeInCfg v) rfl (by decide) fun _ => rfl
  · exact regWrite_owner (writeTiming v) rfl (by decide) fun _ => rfl
  · exact regWrite_owner (writeMotor v) rfl (by decide) fun _ => rfl
  · exact regWrite_owner (writeLed v) rfl (by decide) fun _ => rfl
  · exact regWrite_owner (writeErrCtrl v) rfl (by decide) fun _ => rfl
  · intro exit
    exact regWrite_owner (writeErrCtrl (v ||| 0x100)) rfl (by decide) fun t =>
      congrArg (writeErrCtrl · t) (or_twoPow_of_getLsbD exit).symm
  · exact fun n => regWrite_owner (writePbOwn n v) (toNat_half (by omega)) (by omega) (writePriv_own n v c)
  · exact fun g => regWrite_owner (writeRoute g v) (toNat_half (by omega)) (by omega) (writePriv_route g v c)
  · intro b hi hb
    have le := bit_le_one hi
    exact regWrite_owner (writeSlots b hi v) (toNat_half (by omega)) (by omega) (writePriv_slots hb hi v c)
  · exact fun g => regWrite_window (writePend src.booth g v 0) (toNat_half (by omega)) (by omega) (writeWindow_pend src.booth g v)
  · exact fun g => regWrite_window (writeMask src.booth g v) (toNat_half (by omega)) (by omega) (writeWindow_mask src.booth g v)
  · intro src v c s w dc fm
    rw [regWrite_owner (n := 0x518) (writeCoexCfg v) rfl (by decide) fun _ => rfl, regPort_writes _ w]
    exact congrArg _ (writeCoexCfg_idle dc fm)
  · exact fun src o v c s owner lt al w => regWrite_mirror owner lt al w
  · exact fun src a v c s w al lt ro => regWrite_unwritable w al lt ro
  · exact fun src a v c s answers awake bad => regWrite_misaddressed answers awake bad
  · exact fun src a v c s answers awake hl hb self owner al lo hi => regWrite_outside answers awake hl hb self owner al lo hi

end Sys2Proof.Machine
end

section
/-! SUPPORT. The ports of the host bus and the in-band request: what a read transaction serves (R111, R113, R139, R372),
what a list of source numbers clears (R373), what reaches past a booth's view (R114, R115), and the wake of an address
(R117, R118). -/

namespace Sys2Proof.Machine

/-! ### The front of a transaction -/

/-- The state in which an awake device serves a transaction that its address answers (R110, R124). -/
def heardFront (src : Src) (s : State) : State :=
  s.onHb fun h => { h with ibrQuiet := quietAfter src s, out := [], ack := true }

theorem busFront_heard {src : Src} {w : Bool} {s : State} (answers : busAnswers s src w = true) (awake : s.hb.asleep = false) :
    busFront src w s = (heardFront src s, true) := busFront_awake answers awake

theorem heardFront_pendOnly (src : Src) (s : State) : PendOnly s (heardFront src s) := onHb_pendOnly _ s

@[simp] theorem heardFront_booth (src : Src) (s : State) (b : Booth) : (heardFront src s).booth b = s.booth b := rfl

/-- Setting the selection changes nothing but the selections (R111). -/
theorem setSel_selects (src : Src) (p : Port) (s : State) :
    setSel src p s = s.onHb fun h => { h with
      sel := (setSel src p s).hb.sel, singleBooth := (setSel src p s).hb.singleBooth
      singleSel := (setSel src p s).hb.singleSel } := by
  unfold setSel
  split
  · rfl
  · split <;> rfl

@[simp] theorem setSel_boot (src : Src) (p : Port) (s : State) : (setSel src p s).boot = s.boot := by rw [setSel_selects]; rfl

@[simp] theorem setSel_cmd (src : Src) (p : Port) (s : State) : (setSel src p s).cmd = s.cmd := by rw [setSel_selects]; rfl

@[simp] theorem setSel_out (src : Src) (p : Port) (s : State) : (setSel src p s).hb.out = s.hb.out := by
  rw [setSel_selects]; rfl

@[simp] theorem setSel_ack (src : Src) (p : Port) (s : State) : (setSel src p s).hb.ack = s.hb.ack := by
  rw [setSel_selects]; rfl

/-- The state in which a transaction that selects a port acts on it (R111). -/
def heardPort (src : Src) (p : Port) (s : State) : State := setSel src p (heardFront src s)

theorem heardPort_pendOnly (src : Src) (p : Port) (s : State) : PendOnly s (heardPort src p s) :=
  (heardFront_pendOnly src s).trans (setSel_pendOnly _ _ _)

@[simp] theorem heardPort_boot (src : Src) (p : Port) (s : State) : (heardPort src p s).boot = s.boot := setSel_boot _ _ _

@[simp] theorem heardPort_cmd (src : Src) (p : Port) (s : State) : (heardPort src p s).cmd = s.cmd := setSel_cmd _ _ _

@[simp] theorem heardPort_booth (src : Src) (p : Port) (s : State) (b : Booth) : (heardPort src p s).booth b = s.booth b :=
  congrArg (·.booths.get b) (heardPort_cmd src p s)

@[simp] theorem heardPort_ack (src : Src) (p : Port) (s : State) : (heardPort src p s).hb.ack = true := setSel_ack _ _ _

/-! ### Reading the selected port -/

section
variable {b : Booth} {n : Nat} {s : State} {named : Port}

theorem readBooth_host (mode : addrMode s ≠ 2) : readBooth s { booth := b, path := .host } = b :=
  if_neg fun h => mode h.1

/-- Outside single mode a read on the host bus serves the selection of its own address (R111). -/
theorem readTransaction_host (answers : busAnswers s { booth := b, path := .host } false = true) (awake : s.hb.asleep = false)
    (mode : addrMode s ≠ 2) :
    readTransaction { booth := b, path := .host } named n s
      = readFrom { booth := b, path := .host } n (readSel s { booth := b, path := .host } named)
          (heardFront { booth := b, path := .host } s) := by
  simp only [readTransaction, readBooth_host mode, busFront_heard answers awake]
  exact if_pos rfl

/-- The selection outside single mode is the address's own, unless its booth drains and reads replies (R111, R152). -/
theorem readSel_host (mode : addrMode s ≠ 2) :
    readSel s { booth := b, path := .host } named
      = if (s.booth b).mode = .draining then .reply else s.hb.sel.get b := by
  simp only [readSel, readBooth_host mode, if_neg mode]

theorem readSel_reply (mode : addrMode s ≠ 2) (sel : s.hb.sel.get b = .reply) :
    readSel s { booth := b, path := .host } named = .reply := by
  rw [readSel_host mode, sel, ite_self]

theorem readSel_enabled (mode : addrMode s ≠ 2) (enabled : (s.booth b).mode = .enabled) :
    readSel s { booth := b, path := .host } named = s.hb.sel.get b := by
  rw [readSel_host mode, enabled]
  exact if_neg (by decide)

/-- Bytes sent in answer to a read on the host bus. -/
theorem send_heardFront (bytes : Bytes) : send bytes (heardFront { booth := b, path := .host } s) = sentTo bytes s := rfl

theorem padTo_zero (n : Nat) : padTo n [0] = zeros n := by
  cases n with
  | zero => rfl
  | succ n => simp [padTo, zeros, List.replicate_succ]

theorem leBytes_length (n v : Nat) : (leBytes n v).length = n := by
  induction n generalizing v with
  | zero => rfl
  | succ n ih => simp [leBytes, ih]

theorem replyBytes_length (r : Reply) : (replyBytes r).length = r.payload.length + 6 := by
  simp only [replyBytes, List.length_append, List.length_cons, List.length_nil, leBytes_length]
  omega

theorem readReplies_empty (h : (s.booth b).replies = []) :
    readReplies b n (heardFront { booth := b, path := .host } s) = sentTo (zeros n) s := by
  simp only [readReplies, heardFront_booth, h, zeroFill, padTo_zero, send_heardFront]

/-- The oldest reply leaves the queue with its last byte (R113, R139). -/
theorem readReplies_cons {r : Reply} {rs : List Reply} (h : (s.booth b).replies = r :: rs) :
    readReplies b n (heardFront { booth := b, path := .host } s)
      = if r.payload.length + 7 ≤ n then
          (sentTo (padTo n (BitVec.ofNat 8 (rs.length + 1) :: replyBytes r)) s).onBooth b fun x => { x with replies := rs }
        else sentTo (padTo n (BitVec.ofNat 8 (rs.length + 1) :: replyBytes r)) s := by
  simp only [readReplies, heardFront_booth, h, replyBytes_length, zeroFill, send_heardFront]

end

/-! ### A port byte, then a read -/

section
variable {b : Booth} {n : Nat} {s : State} (answers : busAnswers s { booth := b, path := .host } true = true)
  (awake : s.hb.asleep = false)
include answers awake

/-- A port byte that selects the reply port (R111). -/
theorem portWrite_reply (mode : addrMode s ≠ 2) :
    portWrite { booth := b, path := .host } .reply s
      = (s.onHb fun h => { h with sel := h.sel.set b .reply, ibrQuiet := none }).onHb
          fun h => { h with out := [], ack := true } := by
  simp only [portWrite, busFront_heard answers awake]
  exact if_neg mode

/-- A port byte that names no port sets nothing (R109). -/
theorem portWrite_other (x : Byte) :
    portWrite { booth := b, path := .host } (.other x) s
      = (s.onHb fun h => { h with ibrQuiet := none }).onHb fun h => { h with out := [], ack := false } := by
  simp only [portWrite, busFront_heard answers awake]
  rfl

end

theorem exec_replyRead_selected (src : Src) (n : Nat) (s : State) :
    exec (.replyRead src none n) s = .next (readTransaction src .reply n s) := rfl

theorem exec_eventPortRead_selected (src : Src) (n : Nat) (s : State) :
    exec (.eventPortRead src false n) s = .next (readTransaction src .event n s) := rfl

/-- On the host bus a write of what selects the port comes before the read (R111). -/
theorem exec_replyRead_port (b : Booth) (w : PortWrite) (n : Nat) (s : State) :
    exec (.replyRead { booth := b, path := .host } (some w) n) s
      = .next (readTransaction { booth := b, path := .host } .reply n (portWrite { booth := b, path := .host } w s)) := rfl

/-- A read does not depend on what was sent and acknowledged before (log 5). -/
theorem readTransaction_forgets (src : Src) (named : Port) (n : Nat) (out : Bytes) (ack : Bool) (s : State) :
    readTransaction src named n (s.onHb fun h => { h with out := out, ack := ack }) = readTransaction src named n s := rfl

/-! ### The records of the event port -/

theorem mem_groupRecords {pend mask : Word} {g v : Nat} :
    v ∈ groupRecords pend mask g ↔ ∃ i : Fin 32, pend.getLsbD i.val = true
      ∧ v = 32 * g + i.val + (if mask.getLsbD i.val then 0x8000 else 0) := by
  simp only [groupRecords, List.mem_map, List.mem_filter, List.mem_range]
  constructor
  · rintro ⟨i, ⟨lt, set⟩, rfl⟩
    exact ⟨⟨i, lt⟩, set, rfl⟩
  · rintro ⟨i, set, rfl⟩
    exact ⟨i.val, ⟨i.isLt, set⟩, rfl⟩

/-- A record without bit 15 is its source number (R372). -/
theorem source_of_mem_groupRecords {pend mask : Word} {g : Fin 17} {v : Nat} (h : v ∈ groupRecords pend mask g.val) :
    32 * g.val ≤ v % 0x8000 ∧ v % 0x8000 < 32 * g.val + 32 := by
  obtain ⟨i, -, rfl⟩ := mem_groupRecords.1 h
  split <;> omega

theorem groupRecords_pairwise (pend mask : Word) (g : Fin 17) :
    (groupRecords pend mask g.val).Pairwise fun x y => x % 0x8000 < y % 0x8000 := by
  have sources : ((List.range 32).filter fun i => pend.getLsbD i).Pairwise fun i j => i < j ∧ j < 32 := by
    exact List.Pairwise.filter _ (List.pairwise_lt_range.imp_of_mem fun _ hj lt => ⟨lt, List.mem_range.1 hj⟩)
  refine List.pairwise_map.2 (sources.imp fun {i j} lt => ?_)
  obtain ⟨lt, lt32⟩ := lt
  split <;> split <;> omega

section
variable {s : State} {b : Booth} (hl : s.boot.loader = false)
include hl

theorem eventRecords_running : eventRecords s b
    = (List.finRange 17).flatMap fun g => groupRecords ((s.booth b).pend.get g) ((s.booth b).mask.get g) g.val := by
  simp [eventRecords, hl]

theorem mem_eventRecords {v : Nat} :
    v ∈ eventRecords s b ↔ ∃ (g : Fin 17) (i : Fin 32), ((s.booth b).pend.get g).getLsbD i.val = true
      ∧ v = 32 * g.val + i.val + (if ((s.booth b).mask.get g).getLsbD i.val then 0x8000 else 0) := by
  simp only [eventRecords_running hl, List.mem_flatMap, List.mem_finRange, true_and, mem_groupRecords]

/-- The records stand in ascending source number (R372). -/
theorem eventRecords_pairwise : (eventRecords s b).Pairwise fun x y => x % 0x8000 < y % 0x8000 := by
  rw [eventRecords_running hl]
  refine List.pairwise_flatMap.2 ⟨fun g _ => groupRecords_pairwise _ _ g, (List.pairwise_lt_finRange 17).imp ?_⟩
  intro g k lt x hx y hy
  have below := source_of_mem_groupRecords hx
  have above := source_of_mem_groupRecords hy
  omega

end

/-! ### Clearing sources by number -/

/-- The pending bits after one number of a write to the event port: 0xFFFF clears all of them (R373). -/
def clearPend (p : Vector Word 17) (v : Nat) : Vector Word 17 :=
  if v = 0xFFFF then Vector.replicate 17 0
  else p.set (Fin.ofNat 17 (v / 32)) (p.get (Fin.ofNat 17 (v / 32)) &&& ~~~(1#32 <<< (v % 32)))

theorem get_set_word (p : Vector Word 17) (k g : Fin 17) (w : Word) :
    (p.set k w).get g = if k = g then w else p.get g := by
  simp only [Fin.ext_iff]
  exact Vector.getElem_set k.isLt g.isLt

theorem getLsbD_clearPend {v : Nat} (legal : v ≤ 543 ∨ v = 0xFFFF) (p : Vector Word 17) (g : Fin 17) (i : Fin 32) :
    ((clearPend p v).get g).getLsbD i.val
      = ((p.get g).getLsbD i.val && !decide (32 * g.val + i.val = v) && !decide (0xFFFF = v)) := by
  unfold clearPend
  split
  case isTrue all => simp [all, Vector.get]
  case isFalse one =>
    have group : (Fin.ofNat 17 (v / 32)).val = v / 32 := Nat.mod_eq_of_lt (by omega)
    rw [get_set_word]
    generalize Fin.ofNat 17 (v / 32) = k at group ⊢
    split
    case isTrue here =>
      subst here
      have place : (1#32 <<< (v % 32)).getLsbD i.val = decide (32 * k.val + i.val = v) := by
        rw [← BitVec.twoPow_eq, BitVec.getLsbD_twoPow]
        have same : v % 32 = i.val ↔ 32 * k.val + i.val = v := by omega
        simp [same, Nat.mod_lt]
      simp only [BitVec.getLsbD_and, BitVec.getLsbD_not, i.isLt, decide_true, Bool.true_and, place, Ne.symm one, decide_false
        , Bool.not_false, Bool.and_true]
    case isFalse other =>
      have elsewhere : 32 * g.val + i.val ≠ v := fun e => other (Fin.ext (by omega))
      simp only [elsewhere, Ne.symm one, decide_false, Bool.not_false, Bool.and_true]

theorem getLsbD_foldl_clearPend {vs : List Nat} (legal : ∀ v ∈ vs, v ≤ 543 ∨ v = 0xFFFF) (p : Vector Word 17) (g : Fin 17)
    (i : Fin 32) :
    ((vs.foldl clearPend p).get g).getLsbD i.val
      = ((p.get g).getLsbD i.val && !decide (32 * g.val + i.val ∈ vs) && !decide (0xFFFF ∈ vs)) := by
  induction vs generalizing p with
  | nil => simp
  | cons v vs ih =>
    rw [List.foldl_cons, ih (fun w h => legal w (List.mem_cons_of_mem v h)), getLsbD_clearPend (legal v List.mem_cons_self)]
    simp only [List.mem_cons, Bool.decide_or, Bool.not_or]
    ac_rfl

/-- The pending bits of a booth after the numbers of a list have been written to its event port. -/
def clearListed (b : Booth) (vs : List Nat) (s : State) : State :=
  s.onBooth b fun x => { x with pend := vs.foldl clearPend x.pend }

theorem clearListed_nil (b : Booth) (s : State) : clearListed b [] s = s := onBooth_id b s

theorem State.onBooth_onBooth (s : State) (b : Booth) (f g : BoothSt → BoothSt) :
    (s.onBooth b f).onBooth b g = s.onBooth b fun x => g (f x) := by
  have read : (s.cmd.booths.set b (f (s.cmd.booths.get b))).get b = f (s.cmd.booths.get b) := Vector.getElem_set_self b.isLt
  simp only [State.onBooth, State.onCmd, read, Vector.set_set]

theorem clearListed_cons (b : Booth) (v : Nat) (vs : List Nat) (s : State) :
    clearListed b vs (clearListed b [v] s) = clearListed b (v :: vs) s := State.onBooth_onBooth s b _ _

theorem leBytes_two (v : Nat) : leBytes 2 v = [BitVec.ofNat 8 v, BitVec.ofNat 8 (v / 256)] := rfl

theorem ofLe_leBytes_two {v : Nat} (h : v ≤ 0xFFFF) :
    (BitVec.ofNat 8 v).toNat + 256 * (BitVec.ofNat 8 (v / 256)).toNat = v := by
  simp only [BitVec.toNat_ofNat]
  omega

/-- One legal number at the event port (R373). -/
theorem eventWrite_number {b : Booth} {v : Nat} {rest : Bytes} {s : State} (hl : s.boot.loader = false)
    (legal : v ≤ 543 ∨ v = 0xFFFF) :
    eventWrite b (leBytes 2 v ++ rest) s = eventWrite b rest (clearListed b [v] s) := by
  rw [leBytes_two]
  simp only [List.cons_append, List.nil_append, eventWrite, ofLe_leBytes_two (show v ≤ 0xFFFF by omega)]
  split
  case isTrue all => simp only [clearSources, hl, clearListed, List.foldl_cons, List.foldl_nil, clearPend, all]; rfl
  case isFalse one =>
    rw [if_neg (by omega)]
    simp only [clearSource, hl, clearListed, List.foldl_cons, List.foldl_nil, clearPend, one]; rfl

/-- A number beyond the sources ends the write without an acknowledgement (R373). -/
theorem eventWrite_bad {b : Booth} {v : Nat} {rest : Bytes} {s : State} (lo : 543 < v) (hi : v < 0xFFFF) :
    eventWrite b (leBytes 2 v ++ rest) s = setAck false s := by
  rw [leBytes_two]
  simp only [List.cons_append, List.nil_append, eventWrite, ofLe_leBytes_two (show v ≤ 0xFFFF by omega)]
  rw [if_neg (by omega), if_pos lo]

/-- The legal numbers at the front of a write take effect before what follows them. -/
theorem eventWrite_numbers {b : Booth} {rest : Bytes} (vs : List Nat) {s : State} (hl : s.boot.loader = false)
    (legal : ∀ v ∈ vs, v ≤ 543 ∨ v = 0xFFFF) :
    eventWrite b (vs.flatMap (leBytes 2) ++ rest) s = eventWrite b rest (clearListed b vs s) := by
  induction vs generalizing s with
  | nil => rw [clearListed_nil]; rfl
  | cons v vs ih =>
    rw [List.flatMap_cons, List.append_assoc, eventWrite_number hl (legal v List.mem_cons_self)
      , ih (s := clearListed b [v] s) hl (fun w h => legal w (List.mem_cons_of_mem v h)), clearListed_cons]

theorem numbers_length (vs : List Nat) : (vs.flatMap (leBytes 2)).length = 2 * vs.length := by
  induction vs with
  | nil => rfl
  | cons v vs ih => rw [List.flatMap_cons, List.length_append, ih, leBytes_length, List.length_cons]; omega

/-- A write to the event port of an awake device (R111, R373). -/
theorem exec_eventPortWrite {src : Src} {data : Bytes} {s : State} (answers : busAnswers s src true = true)
    (awake : s.hb.asleep = false) (fits : busFits src data.length = true) :
    exec (.eventPortWrite src data) s = .next (eventWrite src.booth data (heardPort src .event s)) := by
  have run : exec (.eventPortWrite src data) s = .next (if (busFront src true s).2 && busFits src data.length
      then eventWrite src.booth data (setSel src .event (busFront src true s).1) else (busFront src true s).1) := rfl
  rw [run, busFront_heard answers awake, fits]
  rfl

/-! ### Past a booth's view -/

/-- EV_BOOTH_PRIV of a booth 1 to 7 changes pending bits and in-band requests only, and is pending for the booth and for
booth 0 (R115, Table 18-1). -/
theorem boothPrivEvent_pends {b : Booth} {s u : State} (heard : PendOnly s u) (hl : s.boot.loader = false) (hb : b ≠ 0)
    (self : (s.booth b).mode = .enabled) (owner : (s.booth 0).mode = .enabled) :
    PendOnly s (boothPrivEvent b u) ∧ pends .boothPriv b (boothPrivEvent b u) = true
      ∧ pends .boothPriv 0 (boothPrivEvent b u) = true := by
  have mode : ∀ c, (u.booth c).mode = (s.booth c).mode := fun c => by rw [heard.booths c]
  rw [boothPrivEvent, raiseToBoth_eq_deliver (by rw [heard.bus.boot, hl]) hb]
  exact ⟨(heard.trans (deliver_pendOnly .boothPriv b u)).trans (deliver_pendOnly .boothPriv 0 _)
    , deliver_mono _ _ _ _ _ (deliver_pends _ _ _ ((mode b).trans self))
    , deliver_pends _ _ _ (by rw [deliver_mode, mode, owner])⟩

theorem boothPrivEvent_hb {b : Booth} {s : State} (hl : s.boot.loader = false) (hb : b ≠ 0) :
    (boothPrivEvent b s).hb = { s.hb with ibrReq := (boothPrivEvent b s).hb.ibrReq } := by
  rw [boothPrivEvent, raiseToBoth_eq_deliver hl hb]
  exact same_hb (deliver_hb .boothPriv b s) (deliver_hb .boothPriv 0 _)

theorem readWords_length (s : State) (src : Src) (a n : Nat) : (readWords s src a n).length = 4 * n := by
  induction n generalizing a with
  | zero => rfl
  | succ n ih => rw [readWords, List.length_append, leBytes_length, ih]; omega

theorem readReg_past {s : State} {src : Src} {a : Nat} (hl : s.boot.loader = false) (hb : src.booth ≠ 0) (ha : 0x200 ≤ a) :
    readReg s src a = 0 := by
  simp [readReg, hl, hb, show ¬ a < 0x100 by omega, show ¬ a < 0x200 by omega]

theorem leBytes_zero (n : Nat) : leBytes n 0 = zeros n := by
  induction n with
  | zero => rfl
  | succ n ih => rw [leBytes, Nat.zero_div, ih]; rfl

/-- A booth 1 to 7 reads zeros from 0x0200 on (R115). -/
theorem readWords_past {s : State} {src : Src} (hl : s.boot.loader = false) (hb : src.booth ≠ 0) (n : Nat) {a k : Nat}
    (al : a % 4 = 0) (past : 0x200 ≤ a + k) : (readWords s src a n).getD k 0 = 0 := by
  induction n generalizing a k with
  | zero => rfl
  | succ n ih =>
    rw [readWords]
    by_cases first : k < 4
    · have word : (if a < 0x1000 then readReg s src a else 0) = 0 := by
        rw [readReg_past hl hb (by omega), ite_self]
      have zero : leBytes 4 (0 : Word).toNat = zeros 4 := leBytes_zero 4
      rw [word, zero, List.getD_eq_getElem?_getD, List.getElem?_append_left (by rw [zeros, List.length_replicate]; exact first)
        , zeros, List.getElem?_replicate, if_pos first, Option.getD_some]
    · rw [List.getD_eq_getElem?_getD, List.getElem?_append_right (by rw [leBytes_length]; omega), leBytes_length
        , ← List.getD_eq_getElem?_getD]
      exact ih (by omega) (by omega)

/-- What a read of the register port leaves before an access past the view is reported (R111, R114). -/
def registersRead (src : Src) (a n : Nat) (s : State) : State :=
  setSel src (.register (a + 4 * (n / 4))) (send ((readWords s src a ((n + 3) / 4)).take n) s)

theorem readRegs_eq (src : Src) (a n : Nat) (s : State) (hl : s.boot.loader = false) :
    readRegs src a n s
      = if readsPast src a n then boothPrivEvent src.booth (registersRead src a n s) else registersRead src a n s := by
  simp only [readRegs, hl, Bool.not_false, Bool.and_true, registersRead]

theorem registersRead_pendOnly (src : Src) (a n : Nat) (s : State) : PendOnly s (registersRead src a n s) :=
  (onHb_pendOnly _ s).trans (setSel_pendOnly _ _ _)

@[simp] theorem registersRead_cmd (src : Src) (a n : Nat) (s : State) : (registersRead src a n s).cmd = s.cmd := setSel_cmd _ _ _

@[simp] theorem registersRead_ack (src : Src) (a n : Nat) (s : State) : (registersRead src a n s).hb.ack = true :=
  setSel_ack _ _ _

@[simp] theorem registersRead_out (src : Src) (a n : Nat) (s : State) :
    (registersRead src a n s).hb.out = (readWords s src a ((n + 3) / 4)).take n := setSel_out _ _ _

/-- A read sends as many bytes as were asked for. -/
theorem registersRead_length (src : Src) (a n : Nat) (s : State) : (registersRead src a n s).hb.out.length = n := by
  rw [registersRead_out, List.length_take, readWords_length]
  omega

theorem registersRead_past {src : Src} {a n k : Nat} {s : State} (hl : s.boot.loader = false) (hb : src.booth ≠ 0)
    (al : a % 4 = 0) (hk : k < n) (past : 0x200 ≤ a + k) : (registersRead src a n s).hb.out.getD k 0 = 0 := by
  rw [registersRead_out, List.getD_eq_getElem?_getD, List.getElem?_take_of_lt hk, ← List.getD_eq_getElem?_getD]
  exact readWords_past hl hb _ al past

theorem readsPast_iff {src : Src} {a n : Nat} (hb : src.booth ≠ 0) :
    readsPast src a n = true ↔ 0 < n ∧ 0x200 < a + 4 * ((n + 3) / 4) ∧ a < 0x1000 := by
  simp [readsPast, hb]

theorem regAddrOk_iff {a : Nat} : regAddrOk a = true ↔ a % 4 = 0 ∧ a < 0x1000 := decide_eq_true_iff

section
variable {src : Src} {a : Half} {s : State} (answers : busAnswers s src true = true) (awake : s.hb.asleep = false)
include answers awake

theorem boothPriv_read {n : Nat} (fits : busFits src n = true) (ok : regAddrOk a.toNat = true) :
    exec (.boothPriv src (.read a n)) s = .next (readRegs src a.toNat n (heardPort src (.register a.toNat) s)) := by
  refine congrArg Host.Outcome.next ?_
  simp only [regTransaction, busFront_heard answers awake, fits, ok]
  rfl

theorem boothPriv_write {d : Bytes} {c : ClearResult} (fits : busFits src d.length = true) (ok : regAddrOk a.toNat = true) :
    exec (.boothPriv src (.write a d c)) s
      = .next (writeWords src c ((d.length + 3) / 4) a.toNat d (heardPort src (.register a.toNat) s)) := by
  refine congrArg Host.Outcome.next ?_
  simp only [regTransaction, busFront_heard answers awake, fits, ok]
  rfl

/-- An address that R114 does not accept is not acknowledged, read or written. -/
theorem boothPriv_misaddressed {acc : RegAccess} {n : Nat} (h : acc = .read a n ∨ ∃ d c, acc = .write a d c ∧ d.length = n)
    (fits : busFits src n = true) (bad : regAddrOk a.toNat = false) :
    exec (.boothPriv src acc) s = .next (setAck false (heardFront src s)) := by
  refine congrArg Host.Outcome.next ?_
  obtain rfl | ⟨d, c, rfl, rfl⟩ := h
  · simp only [regTransaction, busFront_heard answers awake, fits, bad]
    rfl
  · simp only [regTransaction, busFront_heard answers awake, fits, bad]
    rfl

end

/-- A write whose first word a booth 1 to 7 may not reach (R115). -/
theorem writeWords_past {src : Src} {c : ClearResult} {a : Nat} {d : Bytes} {s : State} (hl : s.boot.loader = false)
    (hb : src.booth ≠ 0) (lo : 0x100 ≤ a) (hi : a < 0x1000) (some_ : d ≠ []) :
    writeWords src c ((d.length + 3) / 4) a d s = setAck false (boothPrivEvent src.booth s) := by
  have pos := List.length_pos_iff.2 some_
  obtain ⟨m, hm⟩ : ∃ m, (d.length + 3) / 4 = m + 1 := ⟨(d.length - 1) / 4, by omega⟩
  simp [hm, writeWords, some_, hl, hb, lo, Nat.not_le.2 hi]

/-! ### The wake and the in-band request -/

/-- What waking leaves (R69, R117, R209). -/
theorem wake_asleep {s : State} (h : s.hb.asleep = true) :
    wake s = { s with
      hb := { s.hb with asleep := false }, pwr := { s.pwr with wakeDue := true }
      keep := if s.keep.drbgUsed = true then
          { s.keep with drbgSeeds := s.keep.drbgSeeds + 1, drbgReqs := 0, drbgUsed := false } else s.keep } := by
  unfold wake
  rw [if_pos h]
  rfl

/-- A matching address in sleep: with WAKE_MODE 1 it only wakes, and the device stays awake for 10 ms (R117, R118). -/
theorem hbWake_answered {b : Booth} {s : State} (asleep : s.hb.asleep = true)
    (answers : busAnswers s { booth := b, path := .host } false = true) :
    exec (.hbWake b) s = .next ((wake s).onHb fun h => { h with
      ibrQuiet := none, out := [], ack := !s.hb.cfg.getLsbD 4
      awakeTill := if s.hb.cfg.getLsbD 4 then s.ao.rtc + ticksMs 10 else h.awakeTill }) := by
  refine congrArg Host.Outcome.next ((if_pos asleep).trans ?_)
  unfold busFront
  dsimp only
  rw [if_pos answers, wake_asleep asleep, wake_asleep (by exact asleep)]
  cases mode : s.hb.cfg.getLsbD 4 <;> simp [asleep, setAck, State.onHb, quietAfter]

theorem allBooths_split : ∀ b : Booth, allBooths = allBooths.take b.val ++ b :: allBooths.drop (b.val + 1) := by decide

theorem lt_of_mem_take_allBooths : ∀ b c : Booth, c ∈ allBooths.take b.val → c < b := by decide

/-- The first booth in ascending order that meets a condition. -/
theorem find_allBooths {p : Booth → Bool} {b : Booth} (h : p b = true) (least : ∀ c, c < b → p c = false) :
    allBooths.find? p = some b := by
  refine List.find?_eq_some_iff_append.2 ⟨h, _, _, allBooths_split b, fun c before => ?_⟩
  rw [least c (lt_of_mem_take_allBooths b c before)]
  rfl

theorem ibrStart_ready {s : State} {b : Booth} (idle : s.hb.ibrBusy = none) (quiet : s.hb.ibrQuiet = none)
    (ready : ibrReady s b = true) (least : ∀ c : Booth, c < b → ibrReady s c = false) :
    ibrStart s = s.onHb fun h => { h with ibrBusy := some b } := by
  simp [ibrStart, ibrIsQuiet, idle, quiet, find_allBooths ready least]

/-- A request that a controller takes (R122). -/
theorem ibrSend_completed {s : State} {b : Booth} (more : Nat) (busy : s.hb.ibrBusy = some b) :
    ibrSend (.completed more) s
      = send ([BitVec.ofNat 8 (2 * busAddr s b + 1)] ++ (if addrMode s = 2 then [BitVec.ofNat 8 b.val] else [])
          ++ [pendByte s b] ++ List.replicate more 0xFF) (clearIbr b s) := by
  simp only [ibrSend, busy]

theorem ibrSend_nacked {s : State} {b : Booth} (busy : s.hb.ibrBusy = some b) :
    ibrSend .addressNacked s = setAck false (clearIbr b s) := by
  simp only [ibrSend, busy]

theorem ibrTimesOut_busy {s : State} {b : Booth} (busy : s.hb.ibrBusy = some b) :
    ibrTimesOut s
      = raise .ibrTimeout (s.onHb fun h => { h with ibrBusy := none, ibrQuiet := some (s.ao.rtc + ticksMs 100) }) := by
  simp [ibrTimesOut, busy]

end Sys2Proof.Machine
end

section
/-! The obligations of the host bus. -/

namespace Sys2Proof.Machine

/-- Settles O29: a read serves the selection of its address; a write of numbers is a fold over them. -/
theorem portsHandOutRepliesAndEvents : Obligations.PortsHandOutRepliesAndEvents := by
  unfold Obligations.PortsHandOutRepliesAndEvents
  refine ⟨⟨?_, ?_⟩, ?_, ?_⟩
  · intro b n s answers awake mode sel
    have served : exec (.replyRead { booth := b, path := .host } none n) s
        = .next (readReplies b n (heardFront { booth := b, path := .host } s)) := by
      rw [exec_replyRead_selected, readTransaction_host answers awake mode, readSel_reply mode sel]
      rfl
    refine ⟨fun none_ => ?_, fun r rs some_ => ?_⟩
    · rw [served, readReplies_empty none_]
    · rw [served, readReplies_cons some_]
      rfl
  · intro b n s answers awake mode _
    refine ⟨?_, fun x => ?_⟩
    · rw [exec_replyRead_port, portWrite_reply answers awake mode, readTransaction_forgets, exec_replyRead_selected]
      rfl
    · rw [exec_replyRead_port, portWrite_other answers awake, readTransaction_forgets, exec_replyRead_selected]
      rfl
  · intro b n s answers awake hl mode sel enabled
    refine ⟨eventRecords s b, ?_, eventRecords_pairwise hl, fun _ => mem_eventRecords hl⟩
    rw [exec_eventPortRead_selected, readTransaction_host answers awake mode, readSel_enabled mode enabled, sel]
    rfl
  · intro src vs s answers awake hl legal fits
    have runs : ∀ rest : Bytes, busFits src (2 * vs.length + rest.length) = true →
        exec (.eventPortWrite src (vs.flatMap (leBytes 2) ++ rest)) s
          = .next (eventWrite src.booth rest (clearListed src.booth vs (heardPort src .event s))) := by
      intro rest fits
      rw [exec_eventPortWrite answers awake (by rw [List.length_append, numbers_length]; exact fits)
        , eventWrite_numbers vs (by rw [heardPort_boot, hl]) legal]
    refine ⟨clearListed src.booth vs (heardPort src .event s), ?_, ?_, heardPort_ack _ _ _, ?_, ?_, ?_, ?_, ?_⟩
    · have := runs [] fits
      rwa [List.append_nil] at this
    · exact OnlyBus.trans (heardPort_pendOnly src .event s).bus rfl
    · exact fun b other => (State.onBooth_booth_ne _ _ _ other).trans (heardPort_booth _ _ _ b)
    · rw [clearListed, State.onBooth_booth_self, heardPort_booth]
    · intro g i
      rw [clearListed, State.onBooth_booth_self, heardPort_booth]
      exact getLsbD_foldl_clearPend legal _ g i
    · exact fun x fits => runs [x] fits
    · intro bad rest lo hi fits
      have fits' : busFits src (2 * vs.length + (leBytes 2 bad ++ rest).length) = true := by
        rw [List.length_append, leBytes_length, ← Nat.add_assoc, fits]
      rw [List.append_assoc, runs _ fits', eventWrite_bad lo hi]
      rfl

/-- Settles O30: the read serves zeros word by word, the write ends at its first word. -/
theorem accessPastTheViewIsReported : Obligations.AccessPastTheViewIsReported := by
  unfold Obligations.AccessPastTheViewIsReported
  intro src s answers awake hl hb self owner
  refine ⟨?_, ?_, ?_, ?_⟩
  · intro a n al lt pos past fits
    have reach : readsPast src a.toNat n = true := (readsPast_iff hb).2 ⟨pos, by omega, lt⟩
    have running : (heardPort src (.register a.toNat) s).boot.loader = false := by rw [heardPort_boot, hl]
    have read := registersRead_pendOnly src a.toNat n (heardPort src (.register a.toNat) s)
    rw [boothPriv_read answers awake fits (regAddrOk_iff.2 ⟨al, lt⟩), readRegs_eq _ _ _ _ running, if_pos reach]
    obtain ⟨only, pendsSelf, pendsOwner⟩ :=
      boothPrivEvent_pends ((heardPort_pendOnly src (.register a.toNat) s).trans read) hl hb self owner
    have bus := boothPrivEvent_hb (by rw [read.bus.boot, running]) hb
    refine ⟨_, rfl, only.bus, ?_, ?_, fun k hk past => ?_, pendsSelf, pendsOwner, only.cmd, only.booths⟩ <;> rw [bus]
    · exact registersRead_ack _ _ _ _
    · exact registersRead_length _ _ _ _
    · exact registersRead_past running hb al hk past
  · intro n pos le
    have fits : busFits src n = true := Bool.or_eq_true_iff.2 (Or.inr (decide_eq_true (by omega)))
    have inside : ¬ readsPast src (0x1FC : Half).toNat n = true := by
      rw [readsPast_iff hb, show (0x1FC : Half).toNat = 0x1FC from rfl]
      omega
    rw [boothPriv_read answers awake fits (by decide), readRegs_eq _ _ _ _ (by rw [heardPort_boot, hl]), if_neg inside]
    have only := (heardPort_pendOnly src (.register (0x1FC : Half).toNat) s).trans
      (registersRead_pendOnly src (0x1FC : Half).toNat n _)
    exact ⟨_, rfl, by rw [registersRead_cmd, heardPort_cmd], only.bus, registersRead_ack _ _ _ _⟩
  · intro a d c al lo hi some_ fits
    rw [boothPriv_write answers awake fits (regAddrOk_iff.2 ⟨al, hi⟩)
      , writeWords_past (by rw [heardPort_boot, hl]) hb lo hi some_]
    obtain ⟨only, pendsSelf, pendsOwner⟩ :=
      boothPrivEvent_pends (heardPort_pendOnly src (.register a.toNat) s) hl hb self owner
    have nacked := only.trans (onHb_pendOnly (fun h => { h with ack := false }) _)
    exact ⟨_, rfl, nacked.bus, rfl, pendsSelf, pendsOwner, nacked.cmd, nacked.booths⟩
  · intro acc a n h fits bad
    have refused : regAddrOk a.toNat = false := Bool.eq_false_iff.2 fun ok => by
      obtain ⟨al, lt⟩ := regAddrOk_iff.1 ok
      omega
    exact boothPriv_misaddressed answers awake h fits refused

/-- Settles O31: the wake, the search for the lowest booth and the ends of a request, one by one. -/
theorem busWakeAndInBandRequests : Obligations.BusWakeAndInBandRequests := by
  unfold Obligations.BusWakeAndInBandRequests
  refine ⟨?_, ?_, ?_, ?_⟩
  · intro b s asleep answers
    rw [hbWake_answered asleep answers, wake_asleep asleep]
    exact ⟨_, rfl, rfl, rfl, rfl, rfl, rfl, fun mode => if_pos mode, rfl⟩
  · exact fun b s idle quiet ready least => congrArg Host.Outcome.next (ibrStart_ready idle quiet ready least)
  · intro b s busy
    refine ⟨fun more => ?_, ?_⟩
    · exact ⟨_, congrArg Host.Outcome.next (ibrSend_completed more busy), rfl, rfl, rfl, rfl⟩
    · exact ⟨_, congrArg Host.Outcome.next (ibrSend_nacked busy), rfl, rfl, rfl, rfl⟩
  · intro b s busy hl
    refine ⟨_, congrArg Host.Outcome.next (ibrTimesOut_busy busy), ?_, ?_, ?_, (raise_only _ _).after rfl⟩
    · rw [raise_hb]
      rfl
    · rw [raise_hb]
      rfl
    · exact raise_raised .ibrTimeout (s.onHb _) hl

end Sys2Proof.Machine
end

section
/-! SUPPORT. What the key-slot commands answer in each case of Table 10-3, and what erasing a slot leaves (R166, R199 to
R201). -/

namespace Sys2Proof.Machine

/-- A command whose body answers on what `u` holds leaves `u` with the reply. -/
theorem simpleCommand_replies {r : OpRow} {p : Packet} {s u : State} {body : State → State} {st : Status} {pl : Bytes}
    (h : Serves r Needs.none p s) (fresh : tagOut u p.src.booth p.tag = false)
    (answers : body (accepted r.op p s) = answer p st pl (accepted r.op p u)) :
    simpleCommand r p body s = replied p st pl u := by
  rw [simpleCommand_serves _ h, answers, answer_accepted _ _ _ fresh]

/-! ### The content of a slot -/

theorem keySlot_fin (s : State) (k : Fin 64) : keySlot s k.val = s.nv.keys.get k := dif_pos k.isLt

/-- A running operation is aborted by an erasure only where an engine runs one (R201). -/
theorem abortOn_free {e : EngineId} {k : Nat} {s : State} (free : engineCur s e = none) : abortOn e k s = s := by
  unfold abortOn
  rw [free]

/-- The state with one slot erased and all else as before (R199, R200). -/
def slotErased (k : Fin 64) (s : State) : State :=
  s.onNv fun n => { n with keys := n.keys.set k (erasedSlot (n.keys.get k)) }

theorem writeSlot_erased (k : Fin 64) (s : State) : writeSlot k.val .empty [] 0 false s = slotErased k s := dif_pos k.isLt

/-- Erasing a slot while both engines are free writes that slot alone. -/
theorem eraseSlot_free {k : Fin 64} {s : State} (aes : s.keep.aes.cur = none) (hash : s.keep.hash.cur = none) :
    eraseSlot k.val s = slotErased k s := by
  unfold eraseSlot
  rw [writeSlot_erased, abortOn_free (s := slotErased k s) (e := .aes) aes, abortOn_free (s := slotErased k s) (e := .hash) hash]

theorem keySlot_slotErased (k : Fin 64) (s : State) : keySlot (slotErased k s) k.val = erasedSlot (s.nv.keys.get k) := by
  rw [keySlot_fin]
  exact Vector.getElem_set_self k.isLt

/-! ### The answers -/

section
variable {p : Packet} {s : State}

theorem keyInfoBody_beyond (h : 64 ≤ (byteAt p.payload 0).toNat) : keyInfoBody p s = answer p .badParam [] s := if_pos h

theorem keyInfoBody_foreign (lt : (byteAt p.payload 0).toNat < 64)
    (h : mayUse s p.src.booth (byteAt p.payload 0).toNat = false) : keyInfoBody p s = answer p .priv [] s := by
  simp [keyInfoBody, Nat.not_le.2 lt, h]

theorem keyFlags_eq (k : Nat) (x : KeySlot) :
    keyFlags k x = (if k = 0 then 1 else 0) + 2 * bit x.fromCar + 4 * (if k = 0 ∨ k = 2 ∨ k = 3 ∨ k = 4 then 1 else 0) := by
  simp only [keyFlags, noCmd, bit, decide_eq_true_eq]

theorem keyInfoBody_own {k : Nat} (hk : (byteAt p.payload 0).toNat = k) (lt : k < 64) (h : mayUse s p.src.booth k = true) :
    keyInfoBody p s = answer p .ok
      ([(keySlot s k).typ.code, BitVec.ofNat 8 (slotOwner s k).val] ++ leBytes 2 (keySlot s k).gen.toNat
        ++ [BitVec.ofNat 8 (keyFlags k (keySlot s k))] ++ zeros 3) s := by
  simp [keyInfoBody, hk, Nat.not_le.2 lt, h]

theorem keyEraseBody_retired (h : lifeCycle s = .retired) : keyEraseBody p s = answer p .lifecycle [] s := if_pos h

theorem keyEraseBody_foreign {k : Fin 64} (hk : (byteAt p.payload 0).toNat = k.val) (state : lifeCycle s ≠ .retired)
    (h : mayWrite s p.src.booth k.val = false) : keyEraseBody p s = answer p .priv [] s := by
  simp [keyEraseBody, hk, state, Nat.not_le.2 k.isLt, h]

theorem keyEraseBody_free {k : Fin 64} (hk : (byteAt p.payload 0).toNat = k.val) (state : lifeCycle s ≠ .retired)
    (h : mayWrite s p.src.booth k.val = true) (aes : s.keep.aes.cur = none) (hash : s.keep.hash.cur = none) :
    keyEraseBody p s = answer p .ok (leBytes 2 ((s.nv.keys.get k).gen + 1).toNat) (slotErased k s) := by
  simp only [keyEraseBody, hk, if_neg state, if_neg (Nat.not_le.2 k.isLt), h, eraseSlot_free aes hash, keySlot_slotErased]
  rfl

theorem auditPubBody_empty (h : (keySlot s 4).typ = .empty) : auditPubBody p s = answer p .keyEmpty [] s := if_pos h

theorem auditPubBody_key (h : (keySlot s 4).typ ≠ .empty) :
    auditPubBody p s = answer p .ok (edPublic (keySlot s 4).key) s := if_neg h

end

end Sys2Proof.Machine
end

section
/-! The obligation of the key-slot commands. -/

namespace Sys2Proof.Machine

/-- Settles O17: each case of a command's body answers at once, and an erasure that no engine reads writes one slot. -/
theorem keySlotCommandsReadAndErase : Obligations.KeySlotCommandsReadAndErase := by
  unfold Obligations.KeySlotCommandsReadAndErase
  refine ⟨?_, ?_, ?_⟩
  · rintro p s h k hk
    refine ⟨fun ge => ?_, fun lt no => ?_, fun lt use => ?_⟩
    · exact congrArg _ (simpleCommand_replies h h.tag (keyInfoBody_beyond (hk ▸ ge)))
    · exact congrArg _ (simpleCommand_replies h h.tag (keyInfoBody_foreign (hk ▸ lt) (hk ▸ no)))
    · rw [← keyFlags_eq k (keySlot s k)]
      refine congrArg _ (simpleCommand_replies h h.tag ((keyInfoBody_own (s := accepted op_keyInfo.op p s) hk lt use).trans ?_))
      rw [List.append_assoc _ _ (zeros 3)]
      rfl
  · intro p s h k hk
    refine ⟨fun state => ?_, fun state no => ?_, fun state may aes hash => ?_⟩
    · exact congrArg _ (simpleCommand_replies h h.tag (keyEraseBody_retired state))
    · exact congrArg _ (simpleCommand_replies h h.tag (keyEraseBody_foreign hk state no))
    · exact congrArg _ (simpleCommand_replies (u := slotErased k s) h h.tag (keyEraseBody_free hk state may aes hash))
  · intro p s h
    refine ⟨fun empty => ?_, fun key => ?_⟩
    · exact congrArg _ (simpleCommand_replies h h.tag (auditPubBody_empty empty))
    · exact congrArg _ (simpleCommand_replies h h.tag (auditPubBody_key key))

end Sys2Proof.Machine
end

section
/-! SUPPORT. What a legal write of a routing, slot-map, pending or mask register leaves (R157, R164 to R166, R370). -/

namespace Sys2Proof.Machine

/-- A register write that reaches the block leaves the register's own effect on the state with the word heard. -/
theorem exec_of_write {i : Instr} {src : Src} {a : Nat} {k : State → State} {s t : State}
    (he : exec i s = .next (regPort src a k s)) (w : Writes src a s) (hk : k (regWritten src a s) = t) : exec i s = .next t := by
  rw [he, regPort_writes k w, hk]

theorem RequestsOnly.bus {s t : State} (h : RequestsOnly s t) : OnlyBus s t := by
  obtain ⟨q, rfl⟩ := h
  rfl

theorem RequestsOnly.cmd {s t : State} (h : RequestsOnly s t) : t.cmd = s.cmd := by
  obtain ⟨q, rfl⟩ := h
  rfl

theorem RequestsOnly.ack {s t : State} (h : RequestsOnly s t) : t.hb.ack = s.hb.ack := by
  obtain ⟨q, rfl⟩ := h
  rfl

/-- Nothing but the host bus and one booth differs, and the transfer is acknowledged as before. -/
structure BoothTakes (b : Booth) (f : BoothSt → BoothSt) (s t : State) : Prop where
  bus : OnlyBus s t
  ack : t.hb.ack = s.hb.ack
  self : t.booth b = f (s.booth b)
  other : ∀ c, c ≠ b → t.booth c = s.booth c
  svc : t.cmd.svc = s.cmd.svc

/-- An update of a booth, and in-band requests that may follow from it. -/
theorem boothTakes_of_requestsOnly {b : Booth} {f : BoothSt → BoothSt} {s t : State} (h : RequestsOnly (s.onBooth b f) t) :
    BoothTakes b f s t where
  bus := h.bus.after rfl
  ack := h.ack
  self := (congrArg (·.booths.get b) h.cmd).trans (State.onBooth_booth_self s b f)
  other c hc := (congrArg (·.booths.get c) h.cmd).trans (State.onBooth_booth_ne s b f hc)
  svc := congrArg (·.svc) h.cmd

theorem writePend_boothTakes (b : Booth) (g : Fin 17) (v same : Word) (s : State) :
    BoothTakes b (fun x => { x with pend := x.pend.set g ((x.pend.get g &&& ~~~ v) ||| (same &&& evBits g.val)) }) s
      (writePend b g v same s) := boothTakes_of_requestsOnly (writePend_requestsOnly b g v same s)

theorem writeMask_boothTakes (b : Booth) (g : Fin 17) (v : Word) (s : State) :
    BoothTakes b (fun x => { x with mask := x.mask.set g (v &&& evBits g.val) }) s (writeMask b g v s) :=
  boothTakes_of_requestsOnly (ibrNewly_requestsOnly s [b] _)

theorem writeSig_requestsOnly (v : Word) (s : State) :
    RequestsOnly (s.onCmd fun c => { c with sig := v &&& 0x77777777 }) (writeSig v s) := ibrNewly_requestsOnly s allBooths _

/-- A booth takes slots that no other booth 1 to 7 has (R166). -/
theorem writeSlots_free {b : Booth} {hi : Bool} {v : Word} {s : State} (hb : b ≠ 0)
    (free : ∀ o : Booth, o ≠ 0 → o ≠ b →
      (s.booth o).slots &&& (if hi then v.zeroExtend 64 <<< 32 else (v &&& 0xFFFFFF00).zeroExtend 64) = 0) :
    writeSlots b hi v s = s.onBooth b fun x =>
      { x with slots := (x.slots &&& (if hi then 0x00000000FFFFFFFF else 0xFFFFFFFF00000000))
          ||| (if hi then v.zeroExtend 64 <<< 32 else (v &&& 0xFFFFFF00).zeroExtend 64) } := by
  unfold writeSlots
  rw [if_neg hb]
  refine (if_neg fun taken => ?_).trans (by cases hi <;> rfl)
  obtain ⟨o, _, ho⟩ := List.any_eq_true.1 taken
  simp only [Bool.and_eq_true, bne_iff_ne] at ho
  obtain ⟨⟨owner, self⟩, overlap⟩ := ho
  exact overlap (free o owner self)

end Sys2Proof.Machine
end

section
/-! The obligation of the booth-control registers. -/

namespace Sys2Proof.Machine

/-- Settles O23: each write is an update of one booth or of the routing, then in-band requests at most. -/
theorem boothControlRegistersTakeTheirFields : Obligations.BoothControlRegistersTakeTheirFields := by
  unfold Obligations.BoothControlRegistersTakeTheirFields
  refine ⟨?_, ?_, ?_, ?_, ?_⟩
  · exact fun src g v s w => exec_of_write (k := writeRoute g v) rfl w rfl
  · intro src v s w
    have sig := writeSig_requestsOnly v (regWritten src 0x450 s)
    exact ⟨_, exec_of_write (k := writeSig v) rfl w rfl, sig.cmd, sig.bus.after rfl, sig.ack⟩
  · exact fun src b hi v s w hb free => exec_of_write rfl w (writeSlots_free hb free)
  · intro src g v same s w
    obtain ⟨bus, ack, self, other, svc⟩ := writePend_boothTakes src.booth g v same (regWritten src (0x40 + 4 * g.val) s)
    refine ⟨_, exec_of_write (k := writePend src.booth g v same) rfl w rfl, bus.after rfl, ack, ?_, fun h ne => ?_, ?_, ?_
      , other, svc⟩ <;> rw [self]
    · exact (get_set_word _ _ _ _).trans (if_pos rfl)
    · exact (get_set_word _ _ _ _).trans (if_neg ne.symm)
    · rfl
    · rfl
  · intro src g v s w
    obtain ⟨bus, ack, self, other, svc⟩ := writeMask_boothTakes src.booth g v (regWritten src (0x90 + 4 * g.val) s)
    refine ⟨_, exec_of_write (k := writeMask src.booth g v) rfl w rfl, bus.after rfl, ack, ?_, fun h ne => ?_, ?_
      , other, svc⟩ <;> rw [self]
    · exact (get_set_word _ _ _ _).trans (if_pos rfl)
    · exact (get_set_word _ _ _ _).trans (if_neg ne.symm)
    · rfl

end Sys2Proof.Machine
end

section
/-! SUPPORT. What the entries that wait their turn leave alone, and the events that stay pending while they are written
(R226, R362). -/

namespace Sys2Proof.Machine

theorem reserve_logOnly (e : Option PreEntry) (s : State) : LogOnly s (reserve e s) := by
  unfold reserve
  dsimp only
  split
  · exact rfl
  · split <;> exact rfl

theorem flushLog_logOnly : ∀ (n : Nat) (s : State), LogOnly s (flushLog n s)
  | 0, s => logOnly_refl s
  | n + 1, s => by
    unfold flushLog
    split
    next e rest _ =>
      have written : LogOnly s (writeEntry e (s.onVd fun v => { v with wait := rest })) := (writeEntry_logOnly _ _).after rfl
      exact written.trans (flushLog_logOnly n _)
    next => exact logOnly_refl s

/-- Making an entry touches only what LogOnly names, whether or not its turn has come. -/
theorem logMake_touches (kind source : Byte) (flags : Half) (body : Bytes) (s : State) :
    LogOnly s (logMake kind source flags body s) := (reserve_logOnly _ s).trans (flushLog_logOnly _ _)

theorem reserve_cmd (e : Option PreEntry) (s : State) : (reserve e s).cmd = s.cmd := by
  unfold reserve
  dsimp only
  split
  · rfl
  · split <;> rfl

theorem flushLog_mono (e : Ev) (b : Booth) : ∀ (n : Nat) (s : State), pends e b s = true → pends e b (flushLog n s) = true
  | 0, _, h => h
  | n + 1, s, h => by
    unfold flushLog
    split
    · exact flushLog_mono e b n _ (writeEntry_mono e b _ _ h)
    · exact h

/-- An event stays pending when an entry is made, whether or not its turn has come. -/
theorem logMake_pends {e : Ev} {b : Booth} {s : State} (kind source : Byte) (flags : Half) (body : Bytes)
    (h : pends e b s = true) : pends e b (logMake kind source flags body s) = true :=
  flushLog_mono e b _ _ ((pends_cmd (reserve_cmd _ s)).trans h)

/-- Modes and routes decide where an event is to be pending. -/
theorem Raised.of_same {e : Ev} {s u t : State} (h : Raised e u t) (mode : ∀ b, (u.booth b).mode = (s.booth b).mode)
    (route : u.cmd.route = s.cmd.route) : Raised e s t := fun b enabled sent =>
  h b ((mode b).trans enabled) (by unfold routed at sent ⊢; rw [route]; exact sent)

end Sys2Proof.Machine
end

section
/-! SUPPORT. What a legal write of a frond-chain, Juggler or door register leaves (R168, R170 to R172, R234, R268), and what
a sample does to the detectors (R267). -/

namespace Sys2Proof.Machine

/-! ### Frond chain and Juggler -/

section
variable {v : Word} {s : State}

theorem writeDetCfg_legal (h : bits v 0 3 ≠ 0) :
    writeDetCfg v s = s.onJug fun j =>
      if bits v 0 3 = bits s.jug.detCfg 0 3 then { j with detCfg := v &&& 0xF07 }
      else { j with detCfg := v &&& 0xF07, det := Det.start } := by
  unfold writeDetCfg
  rw [if_neg h]
  by_cases tap : bits v 0 3 = bits s.jug.detCfg 0 3
  · simp only [if_pos tap]
  · simp only [if_neg tap]
    rfl

theorem writeRtnCfg_legal (h : bits v 0 8 ≠ 0) : writeRtnCfg v s = s.onJug fun j => { j with rtnCfg := v &&& 0xFFFF } :=
  if_neg h

end

/-- A field at bit 0 is the word of its value. -/
theorem at_zero (v : Nat) : at_ 0 v = BitVec.ofNat 32 v := BitVec.shiftLeft_zero _

theorem blockLen_of_ne_fast : ∀ {p : ChainPath}, p ≠ .fast → blockLen p = 256
  | .datacast, _ => rfl
  | .fm, _ => rfl
  | .fast, h => absurd rfl h

/-- The sample that fills a block ends it with its root mean square (R267). -/
theorem detect_rms_of_full {p : ChainPath} {tc : Nat} {x : Sample} {d : Det} (h : d.count + 1 = blockLen p) :
    (detect p tc x d).rms = rootMean (d.sum + power x) (blockLen p) := if_pos h

/-! ### Timing, motor and LED -/

section
variable {v : Word} {s : State}

theorem writeTiming_legal (h : ¬ (bits v 0 8 < 5 ∨ 100 < bits v 0 8 ∨ bits v 8 8 = 0 ∨ bits v 16 8 < 10)) :
    writeTiming v s = s.onDoor fun d => { d with timing := v &&& 0x00FFFFFF } := if_neg h

theorem writeMotor_legal (h : bits v 0 12 ≤ 1200) :
    writeMotor v s = s.onDoor fun d => { d with motor := v &&& 0x00FF0FFF } := if_neg (Nat.not_lt.2 h)

/-- Modes 0 and 1 act at once while the device runs (R170). -/
theorem writeLed_steady (h : ¬ (bits v 0 2 = 3 ∨ bits v 8 8 = 0 ∨ bits v 16 8 = 0 ∨ 10 * bits v 16 8 ≤ bits v 8 8))
    (steady : bits v 0 2 ≠ 2) (run : s.phase = .running) :
    writeLed v s = s.onDoor fun d =>
      { d with ledCfg := v &&& 0x00FFFF03, ledCur := v &&& 0x00FFFF03, ledOn := decide (bits v 0 2 = 1) } := by
  simp [writeLed, h, steady, run]

end

/-! ### Outputs -/

/-- Nothing but the drive of the rest-sensed pins differs. -/
def PinsOnly (s t : State) : Prop := ∃ q, t = s.onDoor fun d => { d with pins := q }

theorem pinsOnly_refl (s : State) : PinsOnly s s := ⟨s.door.pins, rfl⟩

theorem PinsOnly.trans {s t u : State} (h : PinsOnly s t) (k : PinsOnly t u) : PinsOnly s u := by
  obtain ⟨_, rfl⟩ := h
  obtain ⟨q, rfl⟩ := k
  exact ⟨q, rfl⟩

theorem letGo_pinsOnly (i : Fin 7) (s : State) : PinsOnly s (letGo i s) := by
  unfold letGo
  split
  · exact ⟨_, rfl⟩
  · exact pinsOnly_refl s

theorem idlePin_pinsOnly (i : Fin 7) (s : State) : PinsOnly s (idlePin i s) := by
  unfold idlePin
  split
  · exact ⟨_, rfl⟩
  · exact letGo_pinsOnly i s

theorem idleOutputs_pinsOnly (s : State) : PinsOnly s (idleOutputs s) :=
  (idlePin_pinsOnly 0 s).trans ((idlePin_pinsOnly 1 _).trans (idlePin_pinsOnly 2 _))

theorem settleOutputs_pinsOnly (s : State) : PinsOnly s (settleOutputs s) := by
  unfold settleOutputs
  split
  · exact idleOutputs_pinsOnly s
  · exact pinsOnly_refl s

/-- A latch sequence keeps the outputs it drives (R54, R230). -/
theorem settleOutputs_busy {s : State} (h : s.door.latch ≠ .idle) : settleOutputs s = s :=
  if_neg fun settled => h settled.2.1

theorem writeOutCfg_busy {v : Word} {s : State} (open_ : s.door.outCfg.getLsbD 31 = false) (busy : s.door.latch ≠ .idle)
    (keep : v.getLsbD 31 = false) : writeOutCfg v s = s.onDoor fun d => { d with outCfg := v &&& 0x80000007 } := by
  have settled : settleOutputs (s.onDoor fun d => { d with outCfg := v &&& 0x80000007 })
      = s.onDoor fun d => { d with outCfg := v &&& 0x80000007 } := settleOutputs_busy busy
  simp only [writeOutCfg, open_, keep, settled, Bool.false_eq_true, if_false]

/-- With LOCK the door record is saved, from the fields as they then stand (R234). -/
theorem writeOutCfg_locks {v : Word} {s : State} (open_ : s.door.outCfg.getLsbD 31 = false) (lock : v.getLsbD 31 = true) :
    ∃ q, writeOutCfg v s
      = (s.onDoor fun d => { d with outCfg := v &&& 0x80000007, pins := q }).onNv fun n =>
          { n with doorRec := some { idle := (v &&& 0x80000007).truncate 3, inCfg := s.door.inCfg.truncate 16
                                     timing := s.door.timing, motor := s.door.motor } } := by
  obtain ⟨q, hq⟩ := settleOutputs_pinsOnly (s.onDoor fun d => { d with outCfg := v &&& 0x80000007 })
  refine ⟨q, ?_⟩
  simp only [writeOutCfg, open_, lock, hq]
  rfl

/-! ### Inputs -/

theorem wakePbus_cases (s : State) : wakePbus s = s ∨ wakePbus s = openGate 5 s := by
  unfold wakePbus
  split
  · split
    · exact .inl rfl
    · exact .inr rfl
  · exact .inl rfl

theorem wakePbus_gatesOnly (s : State) : GatesOnly s (wakePbus s) := by
  rcases wakePbus_cases s with h | h <;> rw [h]
  · exact gatesOnly_refl s
  · exact openGate_gatesOnly 5 s

theorem openGate_door (i : Nat) (s : State) : (openGate i s).door = s.door := by
  unfold openGate
  split
  · rfl
  · split
    · rfl
    · exact raiseIf_door _ _ _

theorem raiseIf_route (c : Bool) (e : Ev) (s : State) : (raiseIf c e s).cmd.route = s.cmd.route := by
  unfold raiseIf
  split
  · exact raise_route e s
  · rfl

theorem openGate_route (i : Nat) (s : State) : (openGate i s).cmd.route = s.cmd.route := by
  unfold openGate
  split
  · rfl
  · split
    · rfl
    · exact raiseIf_route _ _ _

theorem wakePbus_door (s : State) : (wakePbus s).door = s.door := by
  rcases wakePbus_cases s with h | h <;> rw [h]
  exact openGate_door 5 s

theorem wakePbus_route (s : State) : (wakePbus s).cmd.route = s.cmd.route := by
  rcases wakePbus_cases s with h | h <;> rw [h]
  exact openGate_route 5 s

theorem reportTamper_logOnly (s : State) : LogOnly s (reportTamper s) :=
  (raise_logOnly .tamper s).trans (logMake_touches _ _ _ _ _)

theorem latchTamper_logOnly (s : State) : LogOnly s (latchTamper s) := by
  unfold latchTamper
  split
  · split
    · exact raise_logOnly .tamper s
    · exact (reportTamper_logOnly _).after rfl
  · exact rfl

theorem reportTamper_raised {s : State} (hl : s.boot.loader = false) : Raised .tamper s (reportTamper s) := fun b enabled sent =>
  logMake_pends _ _ _ _ (raise_raised .tamper s hl b enabled sent)

/-- An assertion that the latch captures while the device runs raises EV_TAMPER (R59). -/
theorem latchTamper_raised {s : State} (live : alive s = true) (hl : s.boot.loader = false) :
    Raised .tamper s (latchTamper s) := by
  unfold latchTamper
  rw [if_pos live]
  split
  · exact raise_raised .tamper s hl
  · exact reportTamper_raised (s := s.onAo _) hl

/-- The assertion of TAMPER_IN turns with its polarity (R172). -/
def tamperTurns (v : Word) (s : State) : Bool := v.getLsbD 2 != s.ao.tamperLow

/-- The assertion of CRED_WAKE turns with its polarity (R172). -/
def wakeTurns (v : Word) (s : State) : Bool := v.getLsbD 3 != s.door.inCfg.getLsbD 3

/-- The input settings taken, before an assertion that begins so takes effect (R172, R214). -/
def inputsTaken (v : Word) (s : State) : State :=
  (s.onDoor fun d =>
    { d with inCfg := v, tamperIn := d.tamperIn != tamperTurns v s, credWake := d.credWake != wakeTurns v s }).onAo fun a =>
    { a with tamperLow := v.getLsbD 2 }

/-- The PBUS engine wakes where the new settings assert CRED_WAKE (R214). -/
def inputsWoken (v : Word) (s : State) : State :=
  if wakeTurns v s && (inputsTaken v s).door.credWake then wakePbus (inputsTaken v s) else inputsTaken v s

theorem setInCfg_eq (v : Word) (s : State) :
    setInCfg v s
      = if tamperTurns v s && (inputsTaken v s).door.tamperIn then latchTamper (inputsWoken v s) else inputsWoken v s := rfl

theorem inputsTaken_kept {v : Word} {s : State} (tamper : tamperTurns v s = false) (wake : wakeTurns v s = false) :
    inputsTaken v s = s.onDoor fun d => { d with inCfg := v } := by
  have low : v.getLsbD 2 = s.ao.tamperLow := bne_eq_false_iff_eq.1 tamper
  simp only [inputsTaken, tamper, wake, low, Bool.bne_false]
  rfl

/-- With both polarities kept the settings alone change. -/
theorem setInCfg_kept {v : Word} {s : State} (tamper : tamperTurns v s = false) (wake : wakeTurns v s = false) :
    setInCfg v s = s.onDoor fun d => { d with inCfg := v } := by
  simp [setInCfg_eq, inputsWoken, tamper, wake, inputsTaken_kept]

theorem inputsWoken_gatesOnly (v : Word) (s : State) : GatesOnly (inputsTaken v s) (inputsWoken v s) := by
  unfold inputsWoken
  split
  · exact wakePbus_gatesOnly _
  · exact gatesOnly_refl _

theorem inputsWoken_door (v : Word) (s : State) : (inputsWoken v s).door = (inputsTaken v s).door := by
  unfold inputsWoken
  split
  · exact wakePbus_door _
  · rfl

theorem inputsWoken_route (v : Word) (s : State) : (inputsWoken v s).cmd.route = s.cmd.route := by
  unfold inputsWoken
  split
  · exact wakePbus_route _
  · rfl

theorem setInCfg_logOnly (v : Word) (s : State) : LogOnly (inputsWoken v s) (setInCfg v s) := by
  rw [setInCfg_eq]
  split
  · exact latchTamper_logOnly _
  · exact logOnly_refl _

theorem LogOnly.door {s t : State} (h : LogOnly s t) : t.door = s.door := by
  unfold LogOnly at h
  rw [h]

theorem LogOnly.tamperLow {s t : State} (h : LogOnly s t) : t.ao.tamperLow = s.ao.tamperLow := by
  unfold LogOnly at h
  rw [h]

theorem setInCfg_door (v : Word) (s : State) : (setInCfg v s).door = (inputsTaken v s).door :=
  (setInCfg_logOnly v s).door.trans (inputsWoken_door v s)

theorem setInCfg_tamperLow (v : Word) (s : State) : (setInCfg v s).ao.tamperLow = v.getLsbD 2 :=
  (setInCfg_logOnly v s).tamperLow.trans (congrArg (·.tamperLow) (inputsWoken_gatesOnly v s).ao)

/-- A tamper assertion that a changed polarity begins is latched and raised (R59, R172). -/
theorem setInCfg_raised {v : Word} {s : State} (turns : tamperTurns v s = true) (quiet : s.door.tamperIn = false)
    (live : alive s = true) (hl : s.boot.loader = false) : Raised .tamper s (setInCfg v s) := by
  have woken := inputsWoken_gatesOnly v s
  have asserted : (tamperTurns v s && (inputsTaken v s).door.tamperIn) = true := by
    rw [turns]
    show (s.door.tamperIn != tamperTurns v s) = true
    rw [quiet, turns]
    rfl
  have live' : alive (inputsWoken v s) = true := by
    unfold alive
    rw [woken.phase]
    exact live
  have hl' : (inputsWoken v s).boot.loader = false := (congrArg (·.loader) woken.boot).trans hl
  rw [setInCfg_eq, if_pos asserted]
  exact (latchTamper_raised live' hl').of_same (fun b => congrArg (·.mode) (woken.booths b)) (inputsWoken_route v s)

theorem writeInCfg_open {v : Word} {s : State} (open_ : s.door.inCfg.getLsbD 31 = false) :
    writeInCfg v s = setInCfg (v &&& 0x8000FF0F) s := if_neg (by rw [open_]; decide)

theorem getLsbD_inCfg_two (v : Word) : (v &&& 0x8000FF0F).getLsbD 2 = v.getLsbD 2 := by
  rw [BitVec.getLsbD_and]
  exact Bool.and_true _

theorem getLsbD_inCfg_three (v : Word) : (v &&& 0x8000FF0F).getLsbD 3 = v.getLsbD 3 := by
  rw [BitVec.getLsbD_and]
  exact Bool.and_true _

theorem tamperTurns_inCfg (v : Word) (s : State) : tamperTurns (v &&& 0x8000FF0F) s = (v.getLsbD 2 != s.ao.tamperLow) := by
  rw [tamperTurns, getLsbD_inCfg_two]

theorem wakeTurns_inCfg (v : Word) (s : State) :
    wakeTurns (v &&& 0x8000FF0F) s = (v.getLsbD 3 != s.door.inCfg.getLsbD 3) := by
  rw [wakeTurns, getLsbD_inCfg_three]

/-! ### The bits of DOOR_OUT_CFG.LOCK -/

theorem getLsbD_lock (v : Word) : (v ||| 0x80000000).getLsbD 31 = true := by
  rw [BitVec.getLsbD_or]
  exact Bool.or_true _

theorem outCfg_lock (v : Word) : (v ||| 0x80000000) &&& 0x80000007 = (v &&& 0x80000007) ||| 0x80000000 := by
  rw [BitVec.and_or_distrib_right]
  rfl

theorem outCfg_idle (v : Word) : ((v ||| 0x80000000) &&& 0x80000007).truncate 3 = v.truncate 3 := by
  ext i hi
  have low : i = 0 ∨ i = 1 ∨ i = 2 := by omega
  rcases low with rfl | rfl | rfl <;> simp

end Sys2Proof.Machine
end

section
/-! The obligation of the door and frond-chain registers. -/

namespace Sys2Proof.Machine

/-- Settles O24: each register's legal branch is an update of its fields; the detectors and the fronds are read off their
definitions. -/
theorem doorAndChainRegistersTakeTheirFields : Obligations.DoorAndChainRegistersTakeTheirFields := by
  unfold Obligations.DoorAndChainRegistersTakeTheirFields
  refine ⟨?_, ?_, ?_, ?_, ?_, ?_, ?_, ?_, ?_, ?_, ?_, ?_, ?_, ?_⟩
  · exact fun src v s w open5 open100 dwell chg => exec_of_write rfl w (writeTiming_legal (by omega))
  · exact fun src v s w run => exec_of_write rfl w (writeMotor_legal run)
  · intro src v s w open_ tamper wake
    refine exec_of_write rfl w ((writeInCfg_open (s := regWritten src 0x70C s) open_).trans (setInCfg_kept ?_ ?_))
    · exact (tamperTurns_inCfg v _).trans (bne_eq_false_iff_eq.2 tamper)
    · exact (wakeTurns_inCfg v _).trans (bne_eq_false_iff_eq.2 wake)
  · intro src v s w open_
    refine ⟨_, exec_of_write rfl w (writeInCfg_open open_), ?_, ?_, ?_, ?_, fun turns quiet live => ?_⟩
    · rw [setInCfg_door]
      rfl
    · rw [setInCfg_tamperLow, getLsbD_inCfg_two]
    · rw [setInCfg_door, ← tamperTurns_inCfg]
      rfl
    · rw [setInCfg_door, ← wakeTurns_inCfg]
      rfl
    · exact setInCfg_raised (s := regWritten src 0x70C s) ((tamperTurns_inCfg v _).trans (bne_iff_ne.2 turns)) quiet live w.loader
  · exact fun src v s w steady on period shorter run =>
      exec_of_write rfl w (writeLed_steady (by omega) (by omega) run)
  · exact fun src v s w => exec_of_write (k := writeFmShift v) rfl w rfl
  · exact fun src v s w tap => exec_of_write rfl w (writeDetCfg_legal tap)
  · exact fun src v s w => exec_of_write (k := writeFrdCtrl v) rfl w rfl
  · exact fun s => ⟨at_zero _, at_zero _, at_zero _⟩
  · refine fun path tc x d => ⟨rfl, rfl, fun slow full => ?_, fun fast full => ?_⟩
    · have len := blockLen_of_ne_fast slow
      rw [detect_rms_of_full (by omega), len]
    · subst fast
      exact detect_rms_of_full (congrArg (· + 1) full)
  · refine fun h shift x f => ⟨fun skip => ?_, fun ready => ?_⟩
    · exact ⟨_, frondStep_skip h _ x f skip, rfl, rfl⟩
    · refine ⟨_, _, _, frondStep_yield h _ x f ready, rfl, ?_⟩
      refine ⟨(satSample_bounds _).1, (satSample_bounds _).2, (satSample_bounds _).1, (satSample_bounds _).2, fun lo hi => ?_⟩
      exact congrArg Prod.fst (satSample_fits lo hi)
  · exact fun src v s w limit => exec_of_write rfl w (writeRtnCfg_legal limit)
  · exact fun src v s w open_ busy keep => exec_of_write rfl w (writeOutCfg_busy open_ busy keep)
  · intro src v s w open_
    obtain ⟨q, locks⟩ := writeOutCfg_locks (s := regWritten src 0x704 s) open_ (getLsbD_lock v)
    refine ⟨_, exec_of_write rfl w locks, outCfg_lock v, ?_, rfl, rfl, rfl, rfl, rfl⟩
    rw [outCfg_idle]
    rfl

end Sys2Proof.Machine
end
